-- ==== Sys2Proof/Word.lean ====
section
/-! DEFINITION. The word widths of the block (00_scope.md R6, R7). Every value is unsigned; bit 0 is the least
significant bit. -/
namespace Sys2Proof

/-- A mode operand (`B[1:0]`) or the 2-bit request vector. -/
abbrev U2 := BitVec 2
/-- An opcode or a status code. -/
abbrev U4 := BitVec 4
/-- A pin, a channel id or a register index. -/
abbrev U8 := BitVec 8
/-- A delay, a countdown, a semi-period or a register value operand, in microseconds where it is a time. -/
abbrev U16 := BitVec 16
/-- A command word, a response datum, a time stamp, an epoch or a counter. -/
abbrev U32 := BitVec 32

end Sys2Proof
end

