-- ==== Sys2Proof/Syntax.lean ====
section
/-! DEFINITION. The instructions: one constructor per row of spec/opcode_table.json, twelve host commands (format C,
30_encoding.md R82) and the two services that the arbiter selects (format PEND2, 30_encoding.md R92). -/
namespace Sys2Proof

/-- The block's instructions. Operands are used as they stand in the word (30_encoding.md R88). -/
inductive Instr where
  /-- NOP, 40_registry_commands.md R106 -/
  | nop
  /-- REGISTER pin, 40_registry_commands.md R101 -/
  | register (pin : U8)
  /-- RELEASE id, 40_registry_commands.md R102 -/
  | release (id : U8)
  /-- SETDELAY id, delay, 40_registry_commands.md R103 -/
  | setdelay (id : U8) (delay : U16)
  /-- GETDELAY id, 40_registry_commands.md R104 -/
  | getdelay (id : U8)
  /-- GETSEMI, 43_frequency.md R175 -/
  | getsemi
  /-- GETFREQ, 43_frequency.md R176 -/
  | getfreq
  /-- SETFMODE mode, 43_frequency.md R177; the operand is `B[1:0]` -/
  | setfmode (mode : U2)
  /-- WREG index, value, 44_config_regs.md R190 -/
  | wreg (index : U8) (value : U16)
  /-- RREG index, 44_config_regs.md R193 -/
  | rreg (index : U8)
  /-- MEASURE, 43_frequency.md R178 -/
  | measure
  /-- GETCHAN id, 40_registry_commands.md R105 -/
  | getchan (id : U8)
  /-- SVC_ZC, 41_zero_cross.md R124 -/
  | svcZc
  /-- SVC_TMR, 42_scheduler_timer.md R152 -/
  | svcTmr
deriving DecidableEq, Repr

/-- Host commands have a command word; the two services have none (30_encoding.md R92). -/
def Instr.isCommand : Instr → Bool
  | .nop => true
  | .register _ => true
  | .release _ => true
  | .setdelay _ _ => true
  | .getdelay _ => true
  | .getsemi => true
  | .getfreq => true
  | .setfmode _ => true
  | .wreg _ _ => true
  | .rreg _ => true
  | .measure => true
  | .getchan _ => true
  | .svcZc => false
  | .svcTmr => false

end Sys2Proof
end

