-- ==== Sys2Proof/Decode.lean ====
section
/-! DEFINITION. Decoding, total on every word (30_encoding.md R81, R85), and the encoder, both written from the tables
of 30_encoding.md R82, R83 and R92. -/
namespace Sys2Proof

/-- Why a command word names no instruction (30_encoding.md R85). -/
inductive DecodeError where
  /-- `OP` is `0xC .. 0xF` (30_encoding.md R86); answered with ERR_BAD_OP. -/
  | reservedOpcode
  /-- A must-be-zero bit is set (30_encoding.md R87); answered with ERR_BAD_ARG. -/
  | mustBeZeroSet
deriving DecidableEq, Repr

/-- What decoding a command word gives: a command, or a rejection by name. -/
inductive Decoded where
  | command (i : Instr)
  | rejected (e : DecodeError)
deriving DecidableEq, Repr

/-- `OP = w[31:28]` (30_encoding.md R82). -/
def opField (w : U32) : U4 := w.extractLsb' 28 4

/-- `A = w[23:16]` (30_encoding.md R82). -/
def aField (w : U32) : U8 := w.extractLsb' 16 8

/-- `B = w[15:0]` (30_encoding.md R82). -/
def bField (w : U32) : U16 := w.extractLsb' 0 16

/-- One row of the table of 30_encoding.md R83: the bits that must match, their values, and the assembly of the operands
`A` and `B` (30_encoding.md R88). -/
structure CommandRow where
  mask : U32
  pattern : U32
  assemble : U8 → U16 → Instr

/-- The table of 30_encoding.md R83, in its order. -/
def commandRows : List CommandRow :=
  [ ⟨0xFFFFFFFF#32, 0x00000000#32, fun _ _ => .nop⟩,
    ⟨0xFF00FFFF#32, 0x10000000#32, fun a _ => .register a⟩,
    ⟨0xFF00FFFF#32, 0x20000000#32, fun a _ => .release a⟩,
    ⟨0xFF000000#32, 0x30000000#32, fun a b => .setdelay a b⟩,
    ⟨0xFF00FFFF#32, 0x40000000#32, fun a _ => .getdelay a⟩,
    ⟨0xFFFFFFFF#32, 0x50000000#32, fun _ _ => .getsemi⟩,
    ⟨0xFFFFFFFF#32, 0x60000000#32, fun _ _ => .getfreq⟩,
    ⟨0xFFFFFFFC#32, 0x70000000#32, fun _ b => .setfmode (b.extractLsb' 0 2)⟩,
    ⟨0xFF000000#32, 0x80000000#32, fun a b => .wreg a b⟩,
    ⟨0xFF00FFFF#32, 0x90000000#32, fun a _ => .rreg a⟩,
    ⟨0xFFFFFFFF#32, 0xA0000000#32, fun _ _ => .measure⟩,
    ⟨0xFF00FFFF#32, 0xB0000000#32, fun a _ => .getchan a⟩ ]

/-- A command word, by the procedure of 30_encoding.md R85: the reserved opcodes first, then the must-be-zero bits of
the row with the word's opcode (row `OP` of the table). -/
def decode (w : U32) : Decoded :=
  match commandRows[(opField w).toNat]? with
  | none => .rejected .reservedOpcode
  | some row =>
    if w &&& row.mask = row.pattern then .command (row.assemble (aField w) (bField w))
    else .rejected .mustBeZeroSet

/-- The service that the arbiter selects from the request vector `{ZC_PEND, TMR_PEND}` (30_encoding.md R92). -/
def decodeRequest (v : U2) : Option Instr :=
  if v &&& 0b10#2 = 0b10#2 then some .svcZc
  else if v &&& 0b11#2 = 0b01#2 then some .svcTmr
  else none

/-- A row of spec/opcode_table.json: a request vector (format PEND2, 2 bits, so one byte) or a command word
(format C). Log 9. -/
def decodeTableWord (nbits w : Nat) : Option Instr :=
  if nbits ≤ 8 then decodeRequest (BitVec.ofNat 2 w)
  else
    match decode (BitVec.ofNat 32 w) with
    | .command i => some i
    | .rejected _ => none

/-! The encoder. -/

/-- The word `{OP, Z, A, B}` of format C with `Z = 0` (30_encoding.md R82). -/
def commandWord (op : U4) (a : U8) (b : U16) : U32 := op ++ 0#4 ++ a ++ b

/-- The command word of a host command; the services have none (30_encoding.md R82, R92). -/
def encodeCommand : Instr → Option U32
  | .nop => some (commandWord 0x0#4 0#8 0#16)
  | .register pin => some (commandWord 0x1#4 pin 0#16)
  | .release id => some (commandWord 0x2#4 id 0#16)
  | .setdelay id delay => some (commandWord 0x3#4 id delay)
  | .getdelay id => some (commandWord 0x4#4 id 0#16)
  | .getsemi => some (commandWord 0x5#4 0#8 0#16)
  | .getfreq => some (commandWord 0x6#4 0#8 0#16)
  | .setfmode mode => some (commandWord 0x7#4 0#8 (mode.setWidth 16))
  | .wreg index value => some (commandWord 0x8#4 index value)
  | .rreg index => some (commandWord 0x9#4 index 0#16)
  | .measure => some (commandWord 0xA#4 0#8 0#16)
  | .getchan id => some (commandWord 0xB#4 id 0#16)
  | .svcZc => none
  | .svcTmr => none

/-- The bits of an instruction as spec/opcode_table.json numbers them, with their number: a command word, or the request
vector that selects the service (30_encoding.md R82, R92). -/
def encode (i : Instr) : Nat × Nat :=
  match encodeCommand i with
  | some w => (32, w.toNat)
  | none => if i = .svcZc then (8, 0b10) else (8, 0b01)

end Sys2Proof
end

