-- ==== Sys2Proof/Config.lean ====
section
/-! DEFINITION. The implementation parameters (00_scope.md R5). They are not state of the block; the state after reset
is a function of them (`Machine.State.resetWith`). -/
namespace Sys2Proof

/-- The parameters that the spec leaves open: the number of slots, the number of gate lines, the latency bound and the
level of the zero-cross input when reset is released (00_scope.md R5). -/
structure Config where
  n : Nat
  npins : Nat
  latMax : Nat
  zcInit : Bool
deriving DecidableEq, Repr

/-- The ranges of the parameters: `1 <= N <= 256` and `1 <= NPINS <= 256` (00_scope.md R5). -/
abbrev Config.InRange (cfg : Config) : Prop :=
  (1 ≤ cfg.n ∧ cfg.n ≤ 256) ∧ (1 ≤ cfg.npins ∧ cfg.npins ≤ 256)

/-- DESIGN CHOICE (log 1): the member of the family that `Machine.State.reset` is, the parameters that
95_test_vectors.md assumes where a vector does not say otherwise. No statement rests on it. -/
def Config.reference : Config := { n := 3, npins := 8, latMax := 0, zcInit := false }

end Sys2Proof
end

