-- ==== Sys2Proof/Machine/State.lean ====
section
/-! DEFINITION. The state of the block (10_state.md R20), the reasons a meaning can stop, and the state after reset
(10_state.md R49). -/
namespace Sys2Proof.Machine

/-- One slot of the Channel Registry (10_state.md R21 to R25). -/
structure Slot where
  /-- `CH[i].PIN`, the gate line the channel drives (R22). -/
  pin : U8
  /-- `CH[i].DELAY`, microseconds from the edge to the firing; `0xFFFF` is never (R23). -/
  delay : U16
  /-- `CH[i].ACTIVE`, the slot is in use (R24). -/
  active : Bool
  /-- `CH[i].FIRED`, the gate has been asserted in this half-cycle (R25). -/
  fired : Bool
deriving DecidableEq, Repr

/-- `POL` (10_state.md R28): code 3 is never stored, so it is no value of the type (log 10). -/
inductive Polarity where
  | rising
  | falling
  | both
deriving DecidableEq, Repr

/-- `FMODE` (10_state.md R30): code 3 is never stored, so it is no value of the type (log 10). -/
inductive FreqMode where
  | fixed50
  | fixed60
  | runtime
deriving DecidableEq, Repr

/-- `ZC_STATE`, the synchronizer's two states (10_state.md R35). -/
inductive SyncState where
  | idle
  | cycleActive
deriving DecidableEq, Repr

/-- The status of a response (30_encoding.md R84); the codes 6 to 15 are never produced. -/
inductive Status where
  | ok
  | errCapacity
  | errBadId
  | errBadOp
  | errBadArg
  | errBadReg
deriving DecidableEq, Repr

/-- The response of a command: status and data (30_encoding.md R84). -/
structure Response where
  status : Status
  data : U32
deriving DecidableEq, Repr

/-- An input of the environment (00_scope.md R10 to R12): which step it takes next, with its argument. -/
inductive Event where
  /-- one pulse of the 1 MHz time base (42_scheduler_timer.md R140) -/
  | tick
  /-- the zero-cross input takes level `v` (41_zero_cross.md R120) -/
  | zcin (v : Bool)
  /-- the service that the arbiter enables (30_encoding.md R95) -/
  | svc
  /-- the host issues command word `w` (30_encoding.md R80) -/
  | cmd (w : U32)
  /-- reset, with the level of the zero-cross input at this moment (70_reset_and_hazards.md R250) -/
  | reset (zcInit : Bool)
deriving DecidableEq, Repr

/-- Everything 10_state.md R20 gives the block, and five fields of the model's own: `latMax`, `zcWait`, `tmrWait`,
`resp`, `inputs`. `N` and `NPINS` are the lengths of `chans` and `gates`. -/
structure State where
  /-- `CH[0 .. N-1]` (R21) -/
  chans : List Slot
  /-- `EN` (R27) -/
  en : Bool
  /-- `POL` (R28) -/
  pol : Polarity
  /-- `PULLUP`, driven out on the line `zc_pullup_en` (R31) -/
  pullup : Bool
  /-- `FMON_CONT` (R32) -/
  fmonCont : Bool
  /-- `MIN_RETRIG` (R29) -/
  minRetrig : U16
  /-- `FMODE` (R30) -/
  fmode : FreqMode
  /-- `FMON_REQ` (R32) -/
  fmonReq : Bool
  /-- `SEMI_MEAS` (R42) -/
  semiMeas : U16
  /-- `SEMI_VALID` (R42) -/
  semiValid : Bool
  /-- `OOR_CNT` (R43) -/
  oorCnt : U32
  /-- `ZC_PREV` (R33) -/
  zcPrev : Bool
  /-- `ZC_PEND` (R34) -/
  zcPend : Bool
  /-- `ZC_CAPT` (R34) -/
  zcCapt : U32
  /-- `ZC_STATE` (R35) -/
  zcState : SyncState
  /-- `T_EDGE` (R36) -/
  tEdge : U32
  /-- `EPOCH` (R37) -/
  epoch : U32
  /-- `NOW` (R38) -/
  now : U32
  /-- `TMR_ARMED` (R39) -/
  tmrArmed : Bool
  /-- `TMR_CNT` (R39) -/
  tmrCnt : U16
  /-- `ARM_VALUE` (R40) -/
  armValue : U16
  /-- `ARM_EPOCH` (R40) -/
  armEpoch : U32
  /-- `TMR_PEND` (R41) -/
  tmrPend : Bool
  /-- `FIRE_EPOCH` (R41) -/
  fireEpoch : U32
  /-- `TFIRE_CNT` (R43) -/
  tfireCnt : U32
  /-- `STALE_CNT` (R43) -/
  staleCnt : U32
  /-- `GATE[0 .. NPINS-1]` (R45) -/
  gates : List Bool
  /-- The parameter `LAT_MAX` (00_scope.md R5); never written. -/
  latMax : Nat
  /-- TICKs since `ZC_PEND` was set, 0 while it is 0 (60_exceptions.md R222; log 7). -/
  zcWait : Nat
  /-- TICKs since `TMR_PEND` was set, 0 while it is 0 (60_exceptions.md R222; log 7). -/
  tmrWait : Nat
  /-- The response of the latest command, on the output port (30_encoding.md R80; log 6). -/
  resp : Option Response
  /-- The environment's inputs not taken yet, the next one first (00_scope.md R12; log 2). -/
  inputs : List Event
deriving DecidableEq, Repr

/-- The reasons the machine stops with a fault: there are none. "There is no fault state, no stuck state and no state
from which a later step is undefined" (60_exceptions.md R212). -/
inductive Fault
deriving DecidableEq, Repr

/-- The reasons a meaning answers with a refusal. -/
inductive Refusal where
  /-- Raised by no arm of `exec`: every instruction of the table has its meaning. Safe. -/
  | notModelled (mnemonic : String)
  /-- Raised by the meanings of the two services in a state where the arbiter does not enable them, so where the spec has
  no such step (00_scope.md R11); `step` never asks for it. Safe: nothing is claimed of a step that does not exist. -/
  | serviceNotEnabled
deriving DecidableEq, Repr

/-- A free slot as reset leaves it (10_state.md R49). -/
def Slot.reset : Slot := { pin := 0#8, delay := 0xFFFF#16, active := false, fired := false }

/-- The state after reset of the block with parameters `cfg` (10_state.md R49): every field and counter 0 but
`CH[i].DELAY = 0xFFFF` and `ZC_PREV = ZC_INIT`. -/
def State.resetWith (cfg : Config) : State where
  chans := List.replicate cfg.n Slot.reset
  en := false
  pol := .rising
  pullup := false
  fmonCont := false
  minRetrig := 0#16
  fmode := .fixed50
  fmonReq := false
  semiMeas := 0#16
  semiValid := false
  oorCnt := 0#32
  zcPrev := cfg.zcInit
  zcPend := false
  zcCapt := 0#32
  zcState := .idle
  tEdge := 0#32
  epoch := 0#32
  now := 0#32
  tmrArmed := false
  tmrCnt := 0#16
  armValue := 0#16
  armEpoch := 0#32
  tmrPend := false
  fireEpoch := 0#32
  tfireCnt := 0#32
  staleCnt := 0#32
  gates := List.replicate cfg.npins false
  latMax := cfg.latMax
  zcWait := 0
  tmrWait := 0
  resp := none
  inputs := []

/-- The machine right after reset, for the reference parameters (log 1); `resetWith` gives it for all others. -/
def State.reset : State := State.resetWith Config.reference

/-- The parameter `N`, the number of slots (00_scope.md R5). -/
abbrev State.numSlots (s : State) : Nat := s.chans.length

/-- The parameter `NPINS`, the number of gate lines (00_scope.md R5). -/
abbrev State.numPins (s : State) : Nat := s.gates.length

end Sys2Proof.Machine
end

