-- ==== Sys2Proof/Machine/Operands.lean ====
section
/-! DEFINITION. The codes of the enumerations, the operand forms and the read views: everything that assembles bits
(30_encoding.md R84, R88 to R91). -/
namespace Sys2Proof.Machine

/-- `POL` as CTRL bits 2:1 show it (30_encoding.md R90). -/
def polarityCode : Polarity → U2
  | .rising => 0#2
  | .falling => 1#2
  | .both => 2#2

/-- The polarity with a code; 3 is refused (44_config_regs.md R191). -/
def polarityOf (code : U2) : Option Polarity :=
  if code = 0#2 then some .rising
  else if code = 1#2 then some .falling
  else if code = 2#2 then some .both
  else none

/-- `FMODE` as register FMODE shows it (30_encoding.md R90). -/
def freqModeCode : FreqMode → U2
  | .fixed50 => 0#2
  | .fixed60 => 1#2
  | .runtime => 2#2

/-- The frequency mode with a code; 3 is refused (43_frequency.md R177). -/
def freqModeOf (code : U2) : Option FreqMode :=
  if code = 0#2 then some .fixed50
  else if code = 1#2 then some .fixed60
  else if code = 2#2 then some .runtime
  else none

/-- `ZC_STATE` as STATUS bit 0 shows it: 0 Idle, 1 CycleActive (10_state.md R35). -/
def syncActive : SyncState → Bool
  | .idle => false
  | .cycleActive => true

/-- The 4-bit status code on the response port (30_encoding.md R84). -/
def statusCode : Status → U4
  | .ok => 0#4
  | .errCapacity => 1#4
  | .errBadId => 2#4
  | .errBadOp => 3#4
  | .errBadArg => 4#4
  | .errBadReg => 5#4

/-- The status that answers a word which names no command (30_encoding.md R85). -/
def decodeStatus : DecodeError → Status
  | .reservedOpcode => .errBadOp
  | .mustBeZeroSet => .errBadArg

/-! The value operand of WREG CTRL (44_config_regs.md R190). -/

/-- `B[0]`, the new `EN`. -/
def ctrlEn (b : U16) : Bool := b.getLsbD 0

/-- `B[2:1]`, the new `POL`, if it is a polarity and bits 15:5 are zero (44_config_regs.md R191). -/
def ctrlPol (b : U16) : Option Polarity :=
  if b.extractLsb' 5 11 = 0#11 then polarityOf (b.extractLsb' 1 2) else none

/-- `B[3]`, the new `PULLUP`. -/
def ctrlPullup (b : U16) : Bool := b.getLsbD 3

/-- `B[4]`, the new `FMON_CONT`. -/
def ctrlFmonCont (b : U16) : Bool := b.getLsbD 4

/-! The registers (30_encoding.md R89). -/

/-- The implemented registers, in the order of their indices `0x00 .. 0x10` (30_encoding.md R89). -/
inductive RegName where
  | ctrl
  | minRetrig
  | fmode
  | status
  | epoch
  | now
  | tEdge
  | zcCapt
  | tmrCnt
  | armValue
  | armEpoch
  | fireEpoch
  | tfireCnt
  | staleCnt
  | oorCnt
  | semiMeas
  | caps
deriving DecidableEq, Repr

/-- The register index map (30_encoding.md R89, 20_memory.md R61). -/
def regNames : List RegName :=
  [.ctrl, .minRetrig, .fmode, .status, .epoch, .now, .tEdge, .zcCapt, .tmrCnt, .armValue, .armEpoch, .fireEpoch,
    .tfireCnt, .staleCnt, .oorCnt, .semiMeas, .caps]

/-- The register with an index; `0x11 .. 0xFF` are reserved (20_memory.md R61). -/
def regOfIndex (index : U8) : Option RegName := regNames[index.toNat]?

/-- CTRL: `{FMON_CONT, PULLUP, POL, EN}` (30_encoding.md R90). -/
def ctrlView (s : State) : U32 :=
  (BitVec.ofBool s.fmonCont ++ BitVec.ofBool s.pullup ++ polarityCode s.pol ++ BitVec.ofBool s.en).setWidth 32

/-- STATUS: `{ZC_PREV, FMON_REQ, SEMI_VALID, TMR_PEND, ZC_PEND, TMR_ARMED, ZC_STATE}` (30_encoding.md R90). -/
def statusView (s : State) : U32 :=
  (BitVec.ofBool s.zcPrev ++ BitVec.ofBool s.fmonReq ++ BitVec.ofBool s.semiValid ++ BitVec.ofBool s.tmrPend
    ++ BitVec.ofBool s.zcPend ++ BitVec.ofBool s.tmrArmed ++ BitVec.ofBool (syncActive s.zcState)).setWidth 32

/-- CAPS: `(NPINS << 16) | N` (30_encoding.md R90). -/
def capsView (s : State) : U32 := (BitVec.ofNat 32 s.numPins <<< 16) ||| BitVec.ofNat 32 s.numSlots

/-- `RegRead`, the 32-bit read view of a register (30_encoding.md R90). -/
def regRead (r : RegName) (s : State) : U32 :=
  match r with
  | .ctrl => ctrlView s
  | .minRetrig => s.minRetrig.setWidth 32
  | .fmode => (freqModeCode s.fmode).setWidth 32
  | .status => statusView s
  | .epoch => s.epoch
  | .now => s.now
  | .tEdge => s.tEdge
  | .zcCapt => s.zcCapt
  | .tmrCnt => s.tmrCnt.setWidth 32
  | .armValue => s.armValue.setWidth 32
  | .armEpoch => s.armEpoch
  | .fireEpoch => s.fireEpoch
  | .tfireCnt => s.tfireCnt
  | .staleCnt => s.staleCnt
  | .oorCnt => s.oorCnt
  | .semiMeas => s.semiMeas.setWidth 32
  | .caps => capsView s

/-- The GETCHAN datum `{DELAY, 0b000000, FIRED, ACTIVE, PIN}` (30_encoding.md R91). -/
def slotView (c : Slot) : U32 :=
  c.delay ++ 0#6 ++ BitVec.ofBool c.fired ++ BitVec.ofBool c.active ++ c.pin

/-- The request vector `{ZC_PEND, TMR_PEND}` of the arbiter (30_encoding.md R92). -/
def requestVector (s : State) : U2 := BitVec.ofBool s.zcPend ++ BitVec.ofBool s.tmrPend

/-- The output line `zc_pullup_en` (10_state.md R31). -/
def pullupLine (s : State) : Bool := s.pullup

end Sys2Proof.Machine
end

