-- ==== Sys2Proof/Machine/Flags.lean ====
section
/-! DEFINITION. The tests that decide a step: polarity, debounce, due time, eligibility, enabledness. -/
namespace Sys2Proof.Machine

/-- `NEVER` (00_scope.md R6). -/
def never : U16 := 0xFFFF#16

/-- `SEMI_50` (43_frequency.md R171). -/
def semi50 : U16 := 10000#16

/-- `SEMI_60` (43_frequency.md R171). -/
def semi60 : U16 := 8333#16

/-- `SP_MIN` (00_scope.md R6). -/
def spMin : U32 := 7692#32

/-- `SP_MAX` (00_scope.md R6). -/
def spMax : U32 := 11111#32

/-- `SEMI()`, the semi-period in microseconds; 0 in runtime mode before the first sample (43_frequency.md R170). -/
def semi (s : State) : U16 :=
  match s.fmode with
  | .fixed50 => semi50
  | .fixed60 => semi60
  | .runtime => if s.semiValid then s.semiMeas else 0#16

/-- `FREQ_HZ(s)`, whole hertz, rounded to nearest (43_frequency.md R172). -/
def freqHz (sp : U16) : U32 :=
  if sp = 0#16 then 0#32 else BitVec.ofNat 32 ((500000 + sp.toNat / 2) / sp.toNat)

/-- `PolMatch(rising)` (41_zero_cross.md R121). -/
def polMatch (p : Polarity) (rising : Bool) : Bool :=
  match p with
  | .rising => rising
  | .falling => !rising
  | .both => true

/-- `Debounced()`: a reference exists and the edge is closer to it than `MIN_RETRIG` (41_zero_cross.md R122). -/
def debounced (s : State) : Bool :=
  let haveRef := s.zcPend || syncActive s.zcState
  let ref := if s.zcPend then s.zcCapt else s.tEdge
  haveRef && decide (s.now - ref < s.minRetrig.setWidth 32)

/-- `Elapsed() = NOW - T_EDGE` modulo `2^32` (42_scheduler_timer.md R146). -/
def elapsed (s : State) : U32 := s.now - s.tEdge

/-- `Elig`, for a slot and a semi-period (42_scheduler_timer.md R148). -/
def eligible (sp : U16) (c : Slot) : Bool :=
  c.active && !c.fired && c.delay != never && decide (c.delay < sp)

/-- The latency bound of TICK: no request has waited `LAT_MAX` TICKs already (00_scope.md R11, 60_exceptions.md R222). -/
def tickEnabled (s : State) : Bool :=
  (!s.zcPend || decide (s.zcWait < s.latMax)) && (!s.tmrPend || decide (s.tmrWait < s.latMax))

end Sys2Proof.Machine
end

