-- ==== Sys2Proof/Machine/Ops.lean ====
section
/-! DEFINITION. The named operations of the block: responses, slots, gate lines, the one-shot timer, the frequency
sample, the scheduler, quiesce, and what a service does on entry. -/
namespace Sys2Proof.Machine

/-! Responses (00_scope.md R8, 30_encoding.md R84). -/

/-- `respond(st, d)`: the one response of a command. -/
def respond (st : Status) (d : U32) (s : State) : State := { s with resp := some ⟨st, d⟩ }

/-- A failing command: the error status, datum 0, no state change (30_encoding.md R84, R85; 00_scope.md R9). -/
def fail (st : Status) (s : State) : State := respond st 0#32 s

/-! Slots (10_state.md R21). -/

/-- The slot with an id, if the id is in range (20_memory.md R62). -/
def slotAt (id : U8) (s : State) : Option Slot := s.chans[id.toNat]?

/-- The slot with an id, if `ActiveId` holds of it (40_registry_commands.md R100). -/
def activeSlot (id : U8) (s : State) : Option Slot := (slotAt id s).filter (·.active)

/-- Write slot number `i` and no other. -/
def setSlot (i : Nat) (c : Slot) (s : State) : State := { s with chans := s.chans.set i c }

/-- The least index of a slot that is not active, if there is one (40_registry_commands.md R101). -/
def lowestFree : List Slot → Option Nat
  | [] => none
  | c :: cs => if c.active then (lowestFree cs).map (· + 1) else some 0

/-- `CH[i].FIRED <- 0` for every slot. -/
def clearFired (s : State) : State := { s with chans := s.chans.map fun c => { c with fired := false } }

/-! The gate-output multiplexer. -/

/-- `ASSERT(p)` (42_scheduler_timer.md R144). A pin that names no line drives nothing (log 14). -/
def assertGate (pin : U8) (s : State) : State := { s with gates := s.gates.set pin.toNat true }

/-- `DEASSERT_ALL()` (42_scheduler_timer.md R145). -/
def deassertAll (s : State) : State := { s with gates := s.gates.map fun _ => false }

/-! The one-shot timer. -/

/-- `ARM(c, m)` (42_scheduler_timer.md R142). -/
def arm (c m : U16) (s : State) : State :=
  { s with tmrCnt := c, tmrArmed := true, armValue := m, armEpoch := s.epoch }

/-- `CANCEL()` (42_scheduler_timer.md R143). -/
def cancel (s : State) : State := { s with tmrArmed := false, tmrCnt := 0#16 }

/-- `Expire()` (42_scheduler_timer.md R141): an unserved older expiry is replaced and counted as stale. -/
def expire (s : State) : State :=
  { s with
    tmrArmed := false
    staleCnt := if s.tmrPend then s.staleCnt + 1#32 else s.staleCnt
    tmrPend := true
    fireEpoch := s.armEpoch }

/-! The frequency sample. -/

/-- `FreqSample(S)` (43_frequency.md R173). -/
def freqSample (sample : U32) (s : State) : State :=
  if spMin ≤ sample ∧ sample ≤ spMax then
    { s with semiMeas := sample.setWidth 16, semiValid := true, fmonReq := false }
  else { s with oorCnt := s.oorCnt + 1#32 }

/-! The Trigger Scheduler. -/

/-- The slots that `Fire(v)` fires: eligible, with delay `v` (42_scheduler_timer.md R149). -/
def fires (sp v : U16) (c : Slot) : Bool := eligible sp c && decide (c.delay = v)

/-- `Fire(v)`: the set of slots is fixed first, then each one's line is asserted and the slot marked; the order cannot
be observed (42_scheduler_timer.md R149; log 16). -/
def fire (v : U16) (s : State) : State :=
  let asserted := (s.chans.filter (fires (semi s) v)).foldl (fun t c => assertGate c.pin t) s
  { asserted with chans := s.chans.map fun c => if fires (semi s) v c then { c with fired := true } else c }

/-- The least of a list of delays. -/
def leastDelay : List U16 → Option U16
  | [] => none
  | d :: ds =>
    match leastDelay ds with
    | none => some d
    | some m => if d ≤ m then some d else some m

/-- The least delay of the eligible slots: the head of DL's Pending-Trigger Queue (10_state.md R26). -/
def leastEligible (s : State) : Option U16 :=
  leastDelay ((s.chans.filter (eligible (semi s))).map (·.delay))

/-- The loop of `Schedule()` (42_scheduler_timer.md R150) for at most as many passes as the first argument says. -/
def scheduleLoop : Nat → State → State
  | 0, s => s
  | passes + 1, s =>
    match leastEligible s with
    | none => cancel s
    | some m =>
      if m.setWidth 32 ≤ elapsed s then scheduleLoop passes (fire m s)
      else arm ((m.setWidth 32 - elapsed s).setWidth 16) m s

/-- `Schedule()` (42_scheduler_timer.md R150): it always ends within `N + 1` passes (42_scheduler_timer.md R151;
log 12). -/
def schedule (s : State) : State := scheduleLoop (s.numSlots + 1) s

/-! Services and quiesce. -/

/-- What SVC_ZC does on entry, in place of an exception entry: nothing is saved, the pending bit is cleared
(60_exceptions.md R223). -/
def enterZc (s : State) : State := { s with zcPend := false, zcWait := 0 }

/-- What SVC_TMR does on entry (60_exceptions.md R223). -/
def enterTmr (s : State) : State := { s with tmrPend := false, tmrWait := 0 }

/-- `Quiesce()` (44_config_regs.md R192). -/
def quiesce (s : State) : State :=
  let dropped := enterZc (enterTmr (cancel s))
  let lowered := clearFired (deassertAll dropped)
  { lowered with zcState := .idle }

end Sys2Proof.Machine
end

