-- ==== Sys2Proof/Machine/Timer.lean ====
section
/-! DEFINITION. The time base, the timer-fire handler and the reset step (42_scheduler_timer.md,
70_reset_and_hazards.md). -/
namespace Sys2Proof.Machine

/-- One TICK of the time base alone: `NOW` advances and the TICKs that a pending request has waited are counted
(42_scheduler_timer.md R140, 60_exceptions.md R222). -/
def advanceTime (s : State) : State :=
  { s with
    now := s.now + 1#32
    zcWait := if s.zcPend then s.zcWait + 1 else 0
    tmrWait := if s.tmrPend then s.tmrWait + 1 else 0 }

/-- One TICK of the one-shot timer: an armed countdown goes down by one and expires on reaching 0
(42_scheduler_timer.md R140). -/
def countDown (s : State) : State :=
  if s.tmrArmed then
    let counted := { s with tmrCnt := s.tmrCnt - 1#16 }
    if counted.tmrCnt = 0#16 then expire counted else counted
  else s

/-- The step `TICK` (42_scheduler_timer.md R140). -/
def tick (s : State) : State := countDown (advanceTime s)

/-- The handler of SVC_TMR (42_scheduler_timer.md R152): a firing of another epoch is dropped and counted. -/
def serviceTmr (s : State) : State :=
  let entered := { enterTmr s with tfireCnt := s.tfireCnt + 1#32 }
  if s.fireEpoch = s.epoch then schedule (fire s.armValue entered)
  else { entered with staleCnt := s.staleCnt + 1#32 }

/-- SVC_TMR (42_scheduler_timer.md R152); outside its precondition there is no such step (00_scope.md R11; log 8). -/
def execSvcTmr (s : State) : Host.Outcome State Fault Refusal :=
  if s.tmrPend && !s.zcPend then .next (serviceTmr s) else .refused .serviceNotEnabled

/-- The step `RESET` (70_reset_and_hazards.md R250), with the level of the zero-cross input at this moment. The
parameters stay, and so do the environment's inputs that have not come yet (log 13). -/
def resetStep (zcInit : Bool) (s : State) : State :=
  { State.resetWith { n := s.numSlots, npins := s.numPins, latMax := s.latMax, zcInit := zcInit } with
    inputs := s.inputs }

end Sys2Proof.Machine
end

