-- ==== Sys2Proof/Machine/ZeroCross.lean ====
section
/-! DEFINITION. The edge detector and the synchronizer's handler (41_zero_cross.md). -/
namespace Sys2Proof.Machine

/-- The latch of a qualifying edge (41_zero_cross.md R123). A second edge before the service overwrites the time; the
latency bound goes on counting from the first one (log 7). -/
def latchEdge (s : State) : State :=
  { s with zcCapt := s.now, zcPend := true, zcWait := if s.zcPend then s.zcWait else 0 }

/-- The edge to level `v` qualifies: enabled, of the selected polarity, not debounced (41_zero_cross.md R120 to R122). -/
def edgeQualifies (v : Bool) (s : State) : Bool := s.en && polMatch s.pol v && !debounced s

/-- The step `ZCIN(v)` (41_zero_cross.md R120). -/
def zcin (v : Bool) (s : State) : State :=
  if v = s.zcPrev then s
  else if edgeQualifies v s then latchEdge { s with zcPrev := v }
  else { s with zcPrev := v }

/-- The monitor samples at this SVC_ZC (43_frequency.md R174). -/
def samplesNow (s : State) : Bool := syncActive s.zcState && (s.fmonCont || s.fmonReq)

/-- The handler of SVC_ZC, in the order of 41_zero_cross.md R124. -/
def serviceZc (s : State) : State :=
  let entered := enterZc s
  let sampled := if samplesNow entered then freqSample (s.zcCapt - s.tEdge) entered else entered
  let lowered := deassertAll { sampled with epoch := s.epoch + 1#32 }
  schedule (clearFired { lowered with tEdge := s.zcCapt, zcState := .cycleActive })

/-- SVC_ZC (41_zero_cross.md R124); outside its precondition there is no such step (00_scope.md R11; log 8). -/
def execSvcZc (s : State) : Host.Outcome State Fault Refusal :=
  if s.zcPend then .next (serviceZc s) else .refused .serviceNotEnabled

end Sys2Proof.Machine
end

