-- ==== Sys2Proof/Machine/Arbiter.lean ====
section
/-! DEFINITION. Which step comes next: the environment's inputs, the arbiter, the latency bound, and the decoding of a
command word. This is what stands in place of an instruction fetch (10_state.md R44). -/
namespace Sys2Proof.Machine

/-- The step that comes next. -/
inductive StepKind where
  | tick
  | zcin (v : Bool)
  | service (i : Instr)
  | cmd (w : U32)
  | reset (zcInit : Bool)
  /-- a service was asked for while none is enabled: no step of the block is taken (log 5) -/
  | nothing
deriving DecidableEq, Repr

/-- The next step and the inputs left after it. -/
structure Selected where
  kind : StepKind
  rest : List Event
deriving DecidableEq, Repr

/-- The service that the arbiter enables, if there is one (60_exceptions.md R220). -/
def arbiter (s : State) : Option Instr := decodeRequest (requestVector s)

/-- The next step: the environment's next input; but a TICK that the latency bound forbids waits for the service first
(00_scope.md R11; log 4), and without an input the block serves what is pending and time goes on (log 3). -/
def select (s : State) : Selected :=
  match s.inputs with
  | [] =>
    match arbiter s with
    | some i => ⟨.service i, []⟩
    | none => ⟨.tick, []⟩
  | .tick :: rest =>
    match (if tickEnabled s then none else arbiter s) with
    | some i => ⟨.service i, .tick :: rest⟩
    | none => ⟨.tick, rest⟩
  | .zcin v :: rest => ⟨.zcin v, rest⟩
  | .svc :: rest =>
    match arbiter s with
    | some i => ⟨.service i, rest⟩
    | none => ⟨.nothing, rest⟩
  | .cmd w :: rest => ⟨.cmd w, rest⟩
  | .reset v :: rest => ⟨.reset v, rest⟩

/-- What is to be done: an instruction to run in a state, or a step that is done already. -/
inductive Fetched where
  | run (i : Instr) (s : State)
  | done (s : State)
deriving DecidableEq, Repr

/-- Take a step of the given kind: events are taken here, a command word is decoded and answered with its error status
if it names no command (30_encoding.md R85), commands and services are handed on. -/
def perform (k : StepKind) (s : State) : Fetched :=
  match k with
  | .tick => .done (tick s)
  | .zcin v => .done (zcin v s)
  | .service i => .run i s
  | .cmd w =>
    match decode w with
    | .command i => .run i s
    | .rejected e => .done (fail (decodeStatus e) s)
  | .reset v => .done (resetStep v s)
  | .nothing => .done s

/-- The next step, taken from the inputs. -/
def fetch (s : State) : Fetched :=
  let next := select s
  perform next.kind { s with inputs := next.rest }

/-- Present an instruction of the table as the next thing that happens: a command word as the host's next command; a
request vector by its pending bits, with the service as the next step (log 9). -/
def present (nbits w : Nat) (s : State) : State :=
  if nbits ≤ 8 then
    { s with zcPend := w.testBit 1, tmrPend := w.testBit 0, inputs := .svc :: s.inputs }
  else { s with inputs := .cmd (BitVec.ofNat 32 w) :: s.inputs }

end Sys2Proof.Machine
end

