-- ==== Sys2Proof/Machine/ConfigRegs.lean ====
section
/-! DEFINITION. Configuration and register access (44_config_regs.md). -/
namespace Sys2Proof.Machine

/-- A WREG of CTRL: refused whole for an illegal value; a write of `EN = 0` quiesces after the fields are stored
(44_config_regs.md R190, R191, R192). -/
def writeCtrl (b : U16) (s : State) : State :=
  match ctrlPol b with
  | none => fail .errBadArg s
  | some p =>
    let stored := { s with en := ctrlEn b, pol := p, pullup := ctrlPullup b, fmonCont := ctrlFmonCont b }
    respond .ok 0#32 (if ctrlEn b then stored else quiesce stored)

/-- A WREG of MIN_RETRIG: any 16-bit value (44_config_regs.md R190). -/
def writeMinRetrig (b : U16) (s : State) : State := respond .ok 0#32 { s with minRetrig := b }

/-- WREG (44_config_regs.md R190): only CTRL and MIN_RETRIG can be written. -/
def execWreg (index : U8) (value : U16) (s : State) : Host.Outcome State Fault Refusal :=
  match regOfIndex index with
  | some .ctrl => .next (writeCtrl value s)
  | some .minRetrig => .next (writeMinRetrig value s)
  | _ => .next (fail .errBadReg s)

/-- RREG (44_config_regs.md R193): no state changes. -/
def execRreg (index : U8) (s : State) : Host.Outcome State Fault Refusal :=
  match regOfIndex index with
  | none => .next (fail .errBadReg s)
  | some r => .next (respond .ok (regRead r s) s)

end Sys2Proof.Machine
end

