-- ==== Sys2Proof/Machine/Frequency.lean ====
section
/-! DEFINITION. The frequency commands (43_frequency.md). -/
namespace Sys2Proof.Machine

/-- GETSEMI (43_frequency.md R175). -/
def execGetsemi (s : State) : Host.Outcome State Fault Refusal :=
  .next (respond .ok ((semi s).setWidth 32) s)

/-- GETFREQ (43_frequency.md R176). -/
def execGetfreq (s : State) : Host.Outcome State Fault Refusal :=
  .next (respond .ok (freqHz (semi s)) s)

/-- SETFMODE (43_frequency.md R177): stored delays and the timer are not touched. -/
def execSetfmode (mode : U2) (s : State) : Host.Outcome State Fault Refusal :=
  match freqModeOf mode with
  | none => .next (fail .errBadArg s)
  | some m => .next (respond .ok 0#32 { s with fmode := m })

/-- MEASURE (43_frequency.md R178). -/
def execMeasure (s : State) : Host.Outcome State Fault Refusal :=
  .next (respond .ok 0#32 { s with fmonReq := true })

end Sys2Proof.Machine
end

