-- ==== Sys2Proof/Machine/Registry.lean ====
section
/-! DEFINITION. The Channel Registry commands (40_registry_commands.md). -/
namespace Sys2Proof.Machine

/-- NOP (40_registry_commands.md R106). -/
def execNop (s : State) : Host.Outcome State Fault Refusal := .next (respond .ok 0#32 s)

/-- REGISTER (40_registry_commands.md R101): the pin is checked before the capacity; the lowest free slot is taken and
starts at never. -/
def execRegister (pin : U8) (s : State) : Host.Outcome State Fault Refusal :=
  if pin.toNat < s.numPins then
    match lowestFree s.chans with
    | none => .next (fail .errCapacity s)
    | some i =>
      .next (respond .ok (BitVec.ofNat 32 i)
        (setSlot i { pin := pin, delay := never, active := true, fired := false } s))
  else .next (fail .errBadArg s)

/-- RELEASE (40_registry_commands.md R102): only `ACTIVE` is written. -/
def execRelease (id : U8) (s : State) : Host.Outcome State Fault Refusal :=
  match activeSlot id s with
  | none => .next (fail .errBadId s)
  | some c => .next (respond .ok 0#32 (setSlot id.toNat { c with active := false } s))

/-- The delay that SETDELAY stores: never for a delay at or beyond the semi-period (40_registry_commands.md R103). -/
def clampDelay (sp b : U16) : U16 := if b = never ∨ sp ≤ b then never else b

/-- SETDELAY (40_registry_commands.md R103). -/
def execSetdelay (id : U8) (delay : U16) (s : State) : Host.Outcome State Fault Refusal :=
  match activeSlot id s with
  | none => .next (fail .errBadId s)
  | some c =>
    let v := clampDelay (semi s) delay
    .next (respond .ok (v.setWidth 32) (setSlot id.toNat { c with delay := v } s))

/-- GETDELAY (40_registry_commands.md R104). -/
def execGetdelay (id : U8) (s : State) : Host.Outcome State Fault Refusal :=
  match activeSlot id s with
  | none => .next (fail .errBadId s)
  | some c => .next (respond .ok (c.delay.setWidth 32) s)

/-- GETCHAN (40_registry_commands.md R105): an id in range is enough, the slot need not be active. -/
def execGetchan (id : U8) (s : State) : Host.Outcome State Fault Refusal :=
  match slotAt id s with
  | none => .next (fail .errBadId s)
  | some c => .next (respond .ok (slotView c) s)

end Sys2Proof.Machine
end

