-- ==== Sys2Proof/Machine/Dispatch.lean ====
section
/-! DEFINITION. One arm per instruction. -/
namespace Sys2Proof.Machine

def exec (i : Instr) (s : State) : Host.Outcome State Fault Refusal :=
  match i with
  | .nop => Sys2Proof.Machine.execNop s
  | .register pin => Sys2Proof.Machine.execRegister pin s
  | .release id => Sys2Proof.Machine.execRelease id s
  | .setdelay id delay => Sys2Proof.Machine.execSetdelay id delay s
  | .getdelay id => Sys2Proof.Machine.execGetdelay id s
  | .getsemi => Sys2Proof.Machine.execGetsemi s
  | .getfreq => Sys2Proof.Machine.execGetfreq s
  | .setfmode mode => Sys2Proof.Machine.execSetfmode mode s
  | .wreg index value => Sys2Proof.Machine.execWreg index value s
  | .rreg index => Sys2Proof.Machine.execRreg index s
  | .measure => Sys2Proof.Machine.execMeasure s
  | .getchan id => Sys2Proof.Machine.execGetchan id s
  | .svcZc => Sys2Proof.Machine.execSvcZc s
  | .svcTmr => Sys2Proof.Machine.execSvcTmr s

end Sys2Proof.Machine
end

