-- ==== Sys2Proof/Machine/Step.lean ====
section
/-! DEFINITION. One step of the machine (00_scope.md R10). -/
namespace Sys2Proof.Machine

/-- One step: the next event, command or service (00_scope.md R10, R11). -/
def step (s : State) : Host.Outcome State Fault Refusal :=
  match fetch s with
  | .run i t => exec i t
  | .done t => .next t

/-- The state in which the instruction of `nbits` bits `w` is what happens next. -/
def State.withFetchWord (s : State) (nbits w : Nat) : State := present nbits w s

end Sys2Proof.Machine
end

