-- ==== Sys2Proof/Safety.lean ====
section
/-! DEFINITION. What the claims speak of: the invariants of 10_state.md R48, quiescent states, runs that go on. -/
namespace Sys2Proof.Machine

/-- The parameters are in their ranges (00_scope.md R5). -/
abbrev State.SizesInRange (s : State) : Prop :=
  (1 ≤ s.numSlots ∧ s.numSlots ≤ 256) ∧ (1 ≤ s.numPins ∧ s.numPins ≤ 256)

/-- 10_state.md R48 (a): an armed countdown is between 1 and 0xFFFE, a disarmed one is 0. -/
abbrev State.CountInRange (s : State) : Prop :=
  (s.tmrArmed = true → 1 ≤ s.tmrCnt.toNat ∧ s.tmrCnt.toNat ≤ 0xFFFE) ∧ (s.tmrArmed = false → s.tmrCnt = 0#16)

/-- 10_state.md R48 (b): a running countdown belongs to this epoch and ends when the elapsed time is the armed delay. -/
abbrev State.CountdownOnTime (s : State) : Prop :=
  s.tmrArmed = true →
    s.armEpoch = s.epoch ∧ s.armValue ≠ 0xFFFF#16 ∧
      s.now + s.tmrCnt.setWidth 32 = s.tEdge + s.armValue.setWidth 32

/-- Every gate line is low and no slot is marked fired. -/
abbrev State.OutputsLow (s : State) : Prop :=
  (∀ g ∈ s.gates, g = false) ∧ ∀ c ∈ s.chans, c.fired = false

/-- 10_state.md R48 (c): a disabled block is idle, with nothing pending, armed, asserted or fired. -/
abbrev State.QuietWhenDisabled (s : State) : Prop :=
  s.en = false →
    s.zcPend = false ∧ s.tmrPend = false ∧ s.tmrArmed = false ∧ s.zcState = .idle ∧ s.OutputsLow

/-- 10_state.md R48 (d): an idle synchronizer has no timer activity, no line asserted and no slot fired. -/
abbrev State.QuietWhenIdle (s : State) : Prop :=
  s.zcState = .idle → s.tmrArmed = false ∧ s.tmrPend = false ∧ s.OutputsLow

/-- 10_state.md R48 (e): an active slot's pin names a gate line. -/
abbrev State.PinsInRange (s : State) : Prop := ∀ c ∈ s.chans, c.active = true → c.pin.toNat < s.numPins

/-- 60_exceptions.md R222: no request has waited more than `LAT_MAX` TICKs, and the count of a request that is not
pending is 0. -/
abbrev State.LatencyKept (s : State) : Prop :=
  (s.zcPend = true → s.zcWait ≤ s.latMax) ∧ (s.zcPend = false → s.zcWait = 0) ∧
    (s.tmrPend = true → s.tmrWait ≤ s.latMax) ∧ (s.tmrPend = false → s.tmrWait = 0)

/-- The invariants (a) to (e) of 10_state.md R48 with the ranges of the parameters and the latency bound. (f) holds by
the types of `pol` and `fmode` (log 10). -/
abbrev State.Inv (s : State) : Prop :=
  s.SizesInRange ∧ s.CountInRange ∧ s.CountdownOnTime ∧ s.QuietWhenDisabled ∧ s.QuietWhenIdle ∧ s.PinsInRange ∧
    s.LatencyKept

/-- A quiescent state (00_scope.md R14). -/
abbrev State.Quiescent (s : State) : Prop := s.zcPend = false ∧ s.tmrPend = false

/-- `k` steps from `s` all answer a next state. -/
def GoesOn (k : Nat) (s : State) : Prop := ∃ t, Sys2Proof.core.run k s = .next t

/-- What is left of a state when the diagnostic counters (10_state.md R43) and the response port are blanked. -/
def State.withoutDiagnostics (s : State) : State :=
  { s with tfireCnt := 0#32, staleCnt := 0#32, oorCnt := 0#32, resp := none }

end Sys2Proof.Machine
end

