-- ==== Sys2Proof/WellFormed.lean ====
section
/-! DEFINITION. Well-formed instructions: the operand checks of each command's own rule that no state decides, only the
parameters (30_encoding.md R84, R85). A command that is not well formed still decodes, and answers its error. -/
namespace Sys2Proof

/-- The legal values of `B` in a WREG of CTRL: bits 15:5 zero and bits 2:1 not 3 (44_config_regs.md R191). -/
def wellFormedCtrl (value : U16) : Bool :=
  decide (value.toNat < 32) && decide (value.toNat / 2 % 4 ≠ 3)

/-- `i`'s operands name something the block with parameters `cfg` has: a gate line (R101), a slot (R62), a frequency
mode (R177), a writable register and a legal value for it (R190, R191), a readable register (R193). -/
def Instr.wellFormed (cfg : Config) : Instr → Bool
  | .nop => true
  | .register pin => decide (pin.toNat < cfg.npins)
  | .release id => decide (id.toNat < cfg.n)
  | .setdelay id _ => decide (id.toNat < cfg.n)
  | .getdelay id => decide (id.toNat < cfg.n)
  | .getsemi => true
  | .getfreq => true
  | .setfmode mode => decide (mode ≠ 3#2)
  | .wreg index value => decide (index = 1#8) || (decide (index = 0#8) && wellFormedCtrl value)
  | .rreg index => decide (index.toNat ≤ 0x10)
  | .measure => true
  | .getchan id => decide (id.toNat < cfg.n)
  | .svcZc => true
  | .svcTmr => true

end Sys2Proof
end

