-- ==== Sys2Proof/Certificates/Slice0/Obligations.lean ====
section
/-! DEFINITION. The statements for the provers. -/
open Sys2Proof Sys2Proof.Machine

/-! ### Encoding -/

/-- Decoding what the encoder writes gives the instruction back, every operand at every value (30_encoding.md R82, R83,
R92). -/
def Obligations.EncodedInstructionsDecodeToThemselves : Prop :=
  ∀ i : Instr, decodeTableWord (encode i).1 (encode i).2 = some i

/-- A command word has one meaning: it is the word that the encoder writes for what it decodes to, so no bit of it is
ignored (30_encoding.md R82, R83, R87). -/
def Obligations.DecodedWordsAreEncodedWords : Prop :=
  ∀ (w : U32) (i : Instr), decode w = .command i → encodeCommand i = some w

/-- The example words of the table of 30_encoding.md R83 stand for the commands beside them, and the rows of 30_encoding.md R92
for the services. -/
def Obligations.ExampleWordsDecode : Prop :=
  decode 0x00000000#32 = .command .nop ∧ decode 0x10040000#32 = .command (.register 4#8) ∧
  decode 0x20020000#32 = .command (.release 2#8) ∧ decode 0x30020BB8#32 = .command (.setdelay 2#8 3000#16) ∧
  decode 0x40020000#32 = .command (.getdelay 2#8) ∧ decode 0x50000000#32 = .command .getsemi ∧
  decode 0x60000000#32 = .command .getfreq ∧ decode 0x70000001#32 = .command (.setfmode 1#2) ∧
  decode 0x80000005#32 = .command (.wreg 0#8 5#16) ∧ decode 0x90040000#32 = .command (.rreg 4#8) ∧
  decode 0xA0000000#32 = .command .measure ∧ decode 0xB0010000#32 = .command (.getchan 1#8) ∧
  decodeRequest 0b10#2 = some .svcZc ∧ decodeRequest 0b11#2 = some .svcZc ∧ decodeRequest 0b01#2 = some .svcTmr

/-- 30_encoding.md R86: the step that takes a word with a reserved opcode answers ERR_BAD_OP whatever the other bits, and
changes nothing. That the word comes from the queue of inputs and the answer stands on the response port is the model's
choice (log 2, 6). -/
def Obligations.ReservedOpcodesAnswerBadOp : Prop :=
  ∀ (s : State) (w : U32) (rest : List Event), s.inputs = .cmd w :: rest → 0xC ≤ w.toNat / 2 ^ 28 →
    step s = .next { s with inputs := rest, resp := some ⟨.errBadOp, 0#32⟩ }

/-- 30_encoding.md R87: for each opcode the bits that must be zero (`Z`, and `A`, `B`, `B[15:2]` where the command does
not use them); the step that takes a word with one of them set answers ERR_BAD_ARG and changes nothing, and the all-zero
word is the only one executed as a no-op. That the word comes from the queue of inputs and the answer stands on the
response port is the model's choice (log 2, 6). -/
def Obligations.MustBeZeroBitsAnswerBadArg : Prop :=
  (∀ (s : State) (w mbz : U32) (rest : List Event), s.inputs = .cmd w :: rest →
    (w.toNat / 2 ^ 28, mbz) ∈
      [(0x0, 0x0FFFFFFF#32), (0x1, 0x0F00FFFF#32), (0x2, 0x0F00FFFF#32), (0x3, 0x0F000000#32), (0x4, 0x0F00FFFF#32),
        (0x5, 0x0FFFFFFF#32), (0x6, 0x0FFFFFFF#32), (0x7, 0x0FFFFFFC#32), (0x8, 0x0F000000#32), (0x9, 0x0F00FFFF#32),
        (0xA, 0x0FFFFFFF#32), (0xB, 0x0F00FFFF#32)] →
    w &&& mbz ≠ 0#32 → step s = .next { s with inputs := rest, resp := some ⟨.errBadArg, 0#32⟩ }) ∧
  ∀ w : U32, decode w = .command .nop ↔ w = 0#32

/-- 30_encoding.md R84: the status codes; the codes 6 to 15 are never produced. -/
def Obligations.StatusCodesAreThoseOfTheTable : Prop :=
  statusCode .ok = 0#4 ∧ statusCode .errCapacity = 1#4 ∧ statusCode .errBadId = 2#4 ∧ statusCode .errBadOp = 3#4 ∧
  statusCode .errBadArg = 4#4 ∧ statusCode .errBadReg = 5#4 ∧ ∀ st, (statusCode st).toNat < 6

/-! ### How a step is taken -/

/-- When the next input is a command word that decodes to `i`, the step is `exec` of `i` with that input taken
(30_encoding.md R80; the queue of inputs is the model's, log 2). -/
def Obligations.StepRunsTheDecodedCommand : Prop :=
  ∀ (s : State) (w : U32) (rest : List Event) (i : Instr),
    s.inputs = .cmd w :: rest → decode w = .command i → step s = exec i { s with inputs := rest }

/-- 60_exceptions.md R220: the arbiter enables SVC_ZC when ZC_PEND = 1, SVC_TMR when only TMR_PEND = 1, nothing
otherwise. -/
def Obligations.ArbiterServesZeroCrossFirst : Prop :=
  ∀ s : State,
    (s.zcPend = true → arbiter s = some .svcZc) ∧
    (s.zcPend = false → s.tmrPend = true → arbiter s = some .svcTmr) ∧
    (s.zcPend = false → s.tmrPend = false → arbiter s = none)

/-- How the step follows the environment's inputs: the model's choices of log 2 (the queue), 3 (no input), 4 (a TICK
that the latency bound forbids waits for the service), 5 (a service that nothing enables) and 6 (the response port). With
`StepRunsTheDecodedCommand` it covers every input. -/
def Obligations.StepFollowsTheInputs : Prop :=
  ∀ (s : State) (rest : List Event),
    (∀ v, s.inputs = .zcin v :: rest → step s = .next (zcin v { s with inputs := rest })) ∧
    (∀ v, s.inputs = .reset v :: rest → step s = .next (resetStep v { s with inputs := rest })) ∧
    (∀ w e, s.inputs = .cmd w :: rest → decode w = .rejected e →
      step s = .next { s with inputs := rest, resp := some ⟨decodeStatus e, 0#32⟩ }) ∧
    (∀ i, s.inputs = .svc :: rest → arbiter s = some i → step s = exec i { s with inputs := rest }) ∧
    (s.inputs = .svc :: rest → arbiter s = none → step s = .next { s with inputs := rest }) ∧
    (s.inputs = .tick :: rest → tickEnabled s = true → step s = .next (tick { s with inputs := rest })) ∧
    (∀ i, s.inputs = .tick :: rest → tickEnabled s = false → arbiter s = some i → step s = exec i s) ∧
    (∀ i, s.inputs = [] → arbiter s = some i → step s = exec i s) ∧
    (s.inputs = [] → arbiter s = none → step s = .next (tick s))

/-- Every word gets exactly one response in its own step, and whatever the word, a response other than OK has datum 0
and nothing else changed (30_encoding.md R80, R81, R84; the response port and the queue are the model's, log 2, 6). -/
def Obligations.EveryCommandWordIsAnswered : Prop :=
  ∀ (s : State) (w : U32) (rest : List Event), s.inputs = .cmd w :: rest →
    ∃ t r, step s = .next t ∧ t.inputs = rest ∧ t.resp = some r ∧
      (r.status ≠ .ok → r.data = 0#32 ∧ t = { s with inputs := rest, resp := some r })

/-- 60_exceptions.md R212: no step stops, so no run stops, from any state whatever. -/
def Obligations.EveryRunGoesOn : Prop :=
  ∀ (k : Nat) (s : State), GoesOn k s

/-! ### Channel Registry commands -/

/-- 40_registry_commands.md R106: the all-zero word is the only NOP, and it answers OK and changes nothing. -/
def Obligations.NopAnswersOk : Prop :=
  (∀ w : U32, decode w = .command .nop ↔ w = 0#32) ∧
  ∀ s : State, exec .nop s = .next { s with resp := some ⟨.ok, 0#32⟩ }

/-- 40_registry_commands.md R101: the encoding, the pin check, the full registry, and the lowest free slot claimed at
never; no other slot and nothing else changes. -/
def Obligations.RegisterTakesTheLowestFreeSlot : Prop :=
  (∀ (w : U32) (pin : U8),
    decode w = .command (.register pin) ↔ w &&& 0xFF00FFFF#32 = 0x10000000#32 ∧ w.extractLsb' 16 8 = pin) ∧
  ∀ (s : State) (pin : U8),
    (s.numPins ≤ pin.toNat → exec (.register pin) s = .next { s with resp := some ⟨.errBadArg, 0#32⟩ }) ∧
    (pin.toNat < s.numPins → (∀ c ∈ s.chans, c.active = true) →
      exec (.register pin) s = .next { s with resp := some ⟨.errCapacity, 0#32⟩ }) ∧
    (pin.toNat < s.numPins → ∀ (i : Nat) (c : Slot), s.chans[i]? = some c → c.active = false →
      (∀ j d, j < i → s.chans[j]? = some d → d.active = true) →
      exec (.register pin) s = .next { s with
        chans := s.chans.set i { pin := pin, delay := 0xFFFF#16, active := true, fired := false }
        resp := some ⟨.ok, BitVec.ofNat 32 i⟩ })

/-- 40_registry_commands.md R102: the encoding, the bad id, and a slot freed by its ACTIVE bit alone: no gate line, no
timer, no other field of the slot. -/
def Obligations.ReleaseFreesTheSlot : Prop :=
  (∀ (w : U32) (id : U8),
    decode w = .command (.release id) ↔ w &&& 0xFF00FFFF#32 = 0x20000000#32 ∧ w.extractLsb' 16 8 = id) ∧
  ∀ (s : State) (id : U8),
    ((∀ c, s.chans[id.toNat]? = some c → c.active = false) →
      exec (.release id) s = .next { s with resp := some ⟨.errBadId, 0#32⟩ }) ∧
    (∀ c, s.chans[id.toNat]? = some c → c.active = true →
      exec (.release id) s = .next { s with
        chans := s.chans.set id.toNat { c with active := false }
        resp := some ⟨.ok, 0#32⟩ })

/-- 40_registry_commands.md R103: the encoding, the bad id, the delay stored or clamped to never, and the datum that
shows what was stored; FIRED, the timer and everything else unchanged. -/
def Obligations.SetdelayStoresOrClamps : Prop :=
  (∀ (w : U32) (id : U8) (delay : U16),
    decode w = .command (.setdelay id delay) ↔
      w &&& 0xFF000000#32 = 0x30000000#32 ∧ w.extractLsb' 16 8 = id ∧ w.extractLsb' 0 16 = delay) ∧
  ∀ (s : State) (id : U8) (delay : U16),
    ((∀ c, s.chans[id.toNat]? = some c → c.active = false) →
      exec (.setdelay id delay) s = .next { s with resp := some ⟨.errBadId, 0#32⟩ }) ∧
    (∀ c v, s.chans[id.toNat]? = some c → c.active = true →
      v = (if delay = 0xFFFF#16 ∨ semi s ≤ delay then 0xFFFF#16 else delay) →
      exec (.setdelay id delay) s = .next { s with
        chans := s.chans.set id.toNat { c with delay := v }
        resp := some ⟨.ok, v.setWidth 32⟩ })

/-- 40_registry_commands.md R104: the encoding, the bad id, and the stored delay read with nothing changed. -/
def Obligations.GetdelayReadsTheStoredDelay : Prop :=
  (∀ (w : U32) (id : U8),
    decode w = .command (.getdelay id) ↔ w &&& 0xFF00FFFF#32 = 0x40000000#32 ∧ w.extractLsb' 16 8 = id) ∧
  ∀ (s : State) (id : U8),
    ((∀ c, s.chans[id.toNat]? = some c → c.active = false) →
      exec (.getdelay id) s = .next { s with resp := some ⟨.errBadId, 0#32⟩ }) ∧
    (∀ c, s.chans[id.toNat]? = some c → c.active = true →
      exec (.getdelay id) s = .next { s with resp := some ⟨.ok, c.delay.setWidth 32⟩ })

/-- 40_registry_commands.md R105 with the datum of 30_encoding.md R91: the encoding, the id out of range, and the whole
slot read in one step, active or not, with nothing changed. -/
def Obligations.GetchanReadsTheWholeSlot : Prop :=
  (∀ (w : U32) (id : U8),
    decode w = .command (.getchan id) ↔ w &&& 0xFF00FFFF#32 = 0xB0000000#32 ∧ w.extractLsb' 16 8 = id) ∧
  ∀ (s : State) (id : U8),
    (s.numSlots ≤ id.toNat → exec (.getchan id) s = .next { s with resp := some ⟨.errBadId, 0#32⟩ }) ∧
    (∀ c, s.chans[id.toNat]? = some c →
      exec (.getchan id) s = .next { s with
        resp := some ⟨.ok,
          BitVec.ofNat 32 (c.delay.toNat * 65536 + c.fired.toNat * 512 + c.active.toNat * 256 + c.pin.toNat)⟩ })

/-! ### Frequency -/

/-- 43_frequency.md R170: the semi-period in each mode. -/
def Obligations.SemiPeriodByMode : Prop :=
  ∀ s : State,
    (s.fmode = .fixed50 → semi s = 10000#16) ∧ (s.fmode = .fixed60 → semi s = 8333#16) ∧
    (s.fmode = .runtime → s.semiValid = true → semi s = s.semiMeas) ∧
    (s.fmode = .runtime → s.semiValid = false → semi s = 0#16)

/-- 43_frequency.md R172: FREQ_HZ is 0 for 0, `(500000 + s div 2) div s` otherwise, which is the whole number nearest to
`1000000 / (2 s)` (nothing within half a hertz is nearer). -/
def Obligations.FrequencyIsTheNearestHertz : Prop :=
  freqHz 0#16 = 0#32 ∧
  ∀ sp : U16, sp ≠ 0#16 →
    (freqHz sp).toNat = (500000 + sp.toNat / 2) / sp.toNat ∧
    2 * (freqHz sp).toNat * sp.toNat ≤ 1000000 + sp.toNat ∧
    1000000 < 2 * (freqHz sp).toNat * sp.toNat + sp.toNat

/-- 43_frequency.md R173: a sample of 7692 to 11111 microseconds replaces the estimate and ends a one-shot measurement;
any other is discarded and counted, and nothing else changes. -/
def Obligations.FrequencySampleIsTakenInRangeOnly : Prop :=
  ∀ (s : State) (sample : U32),
    (7692 ≤ sample.toNat ∧ sample.toNat ≤ 11111 →
      freqSample sample s = { s with
        semiMeas := BitVec.ofNat 16 sample.toNat, semiValid := true, fmonReq := false }) ∧
    (sample.toNat < 7692 ∨ 11111 < sample.toNat → freqSample sample s = { s with oorCnt := s.oorCnt + 1#32 })

/-- 43_frequency.md R175. -/
def Obligations.GetsemiReadsTheSemiPeriod : Prop :=
  (∀ w : U32, decode w = .command .getsemi ↔ w = 0x50000000#32) ∧
  ∀ s : State, exec .getsemi s = .next { s with resp := some ⟨.ok, (semi s).setWidth 32⟩ }

/-- 43_frequency.md R176. -/
def Obligations.GetfreqReadsTheFrequency : Prop :=
  (∀ w : U32, decode w = .command .getfreq ↔ w = 0x60000000#32) ∧
  ∀ s : State, exec .getfreq s = .next { s with resp := some ⟨.ok, freqHz (semi s)⟩ }

/-- 43_frequency.md R177: the encoding, mode 3 refused, and the mode stored with no stored delay, timer or estimate
touched. -/
def Obligations.SetfmodeStoresTheMode : Prop :=
  (∀ (w : U32) (mode : U2),
    decode w = .command (.setfmode mode) ↔ w &&& 0xFFFFFFFC#32 = 0x70000000#32 ∧ w.extractLsb' 0 2 = mode) ∧
  ∀ s : State,
    exec (.setfmode 3#2) s = .next { s with resp := some ⟨.errBadArg, 0#32⟩ } ∧
    ∀ (mode : U2) (m : FreqMode), (mode, m) ∈ [(0#2, .fixed50), (1#2, .fixed60), (2#2, .runtime)] →
      exec (.setfmode mode) s = .next { s with fmode := m, resp := some ⟨.ok, 0#32⟩ }

/-- 43_frequency.md R178. -/
def Obligations.MeasureRequestsOneSample : Prop :=
  (∀ w : U32, decode w = .command .measure ↔ w = 0xA0000000#32) ∧
  ∀ s : State, exec .measure s = .next { s with fmonReq := true, resp := some ⟨.ok, 0#32⟩ }

/-! ### Configuration and register access -/

/-- 44_config_regs.md R190, R191: the encoding, the indices that cannot be written, MIN_RETRIG, the illegal CTRL values
refused whole, and a legal CTRL value stored field by field, followed by Quiesce when `EN = 0`. (What Quiesce does is
`DisablingQuiesces`.) -/
def Obligations.WregWritesCtrlAndMinRetrig : Prop :=
  (∀ (w : U32) (index : U8) (value : U16),
    decode w = .command (.wreg index value) ↔
      w &&& 0xFF000000#32 = 0x80000000#32 ∧ w.extractLsb' 16 8 = index ∧ w.extractLsb' 0 16 = value) ∧
  ∀ (s : State) (index : U8) (value : U16),
    (index ≠ 0x00#8 → index ≠ 0x01#8 →
      exec (.wreg index value) s = .next { s with resp := some ⟨.errBadReg, 0#32⟩ }) ∧
    exec (.wreg 0x01#8 value) s = .next { s with minRetrig := value, resp := some ⟨.ok, 0#32⟩ } ∧
    (32 ≤ value.toNat ∨ value.toNat / 2 % 4 = 3 →
      exec (.wreg 0x00#8 value) s = .next { s with resp := some ⟨.errBadArg, 0#32⟩ }) ∧
    (∀ p, value.toNat < 32 → (value.toNat / 2 % 4, p) ∈ [(0, Polarity.rising), (1, .falling), (2, .both)] →
      value.toNat % 2 = 1 →
      exec (.wreg 0x00#8 value) s = .next { s with
        en := true, pol := p, pullup := decide (value.toNat / 8 % 2 = 1), fmonCont := decide (value.toNat / 16 % 2 = 1)
        resp := some ⟨.ok, 0#32⟩ }) ∧
    (∀ p, value.toNat < 32 → (value.toNat / 2 % 4, p) ∈ [(0, Polarity.rising), (1, .falling), (2, .both)] →
      value.toNat % 2 = 0 →
      exec (.wreg 0x00#8 value) s = .next (respond .ok 0#32 (quiesce { s with
        en := false, pol := p, pullup := decide (value.toNat / 8 % 2 = 1)
        fmonCont := decide (value.toNat / 16 % 2 = 1) })))

/-- 44_config_regs.md R192: a legal CTRL value with `EN = 0` stores the fields, stops the timer, drops what is pending,
lowers every line, clears every FIRED bit and returns to Idle, and keeps everything else. (The two wait counts are the
model's bookkeeping, log 7; nothing is said of them.) -/
def Obligations.DisablingQuiesces : Prop :=
  ∀ (s : State) (value : U16) (p : Polarity),
    value.toNat < 32 → (value.toNat / 2 % 4, p) ∈ [(0, Polarity.rising), (1, .falling), (2, .both)] →
    value.toNat % 2 = 0 →
    ∃ waitedZc waitedTmr, exec (.wreg 0x00#8 value) s = .next { s with
      en := false, pol := p, pullup := decide (value.toNat / 8 % 2 = 1), fmonCont := decide (value.toNat / 16 % 2 = 1)
      tmrArmed := false, tmrCnt := 0#16, tmrPend := false, zcPend := false
      gates := List.replicate s.numPins false
      chans := s.chans.map fun c => { c with fired := false }
      zcState := .idle, zcWait := waitedZc, tmrWait := waitedTmr
      resp := some ⟨.ok, 0#32⟩ }

/-- 44_config_regs.md R193 with the views of 30_encoding.md R89, R90: every implemented index reads its register, bit by
bit, every other answers ERR_BAD_REG, and nothing changes. -/
def Obligations.RregReadsEveryRegister : Prop :=
  (∀ (w : U32) (index : U8),
    decode w = .command (.rreg index) ↔ w &&& 0xFF00FFFF#32 = 0x90000000#32 ∧ w.extractLsb' 16 8 = index) ∧
  ∀ (s : State) (index : U8),
    (0x10 < index.toNat → exec (.rreg index) s = .next { s with resp := some ⟨.errBadReg, 0#32⟩ }) ∧
    (∀ v : U32,
      (index.toNat, v) ∈
        [ (0x00, BitVec.ofNat 32 (s.en.toNat + (polarityCode s.pol).toNat * 2 + s.pullup.toNat * 8
            + s.fmonCont.toNat * 16)),
          (0x01, BitVec.ofNat 32 s.minRetrig.toNat),
          (0x02, BitVec.ofNat 32 (freqModeCode s.fmode).toNat),
          (0x03, BitVec.ofNat 32 ((if s.zcState = .cycleActive then 1 else 0) + s.tmrArmed.toNat * 2
            + s.zcPend.toNat * 4 + s.tmrPend.toNat * 8 + s.semiValid.toNat * 16 + s.fmonReq.toNat * 32
            + s.zcPrev.toNat * 64)),
          (0x04, s.epoch), (0x05, s.now), (0x06, s.tEdge), (0x07, s.zcCapt),
          (0x08, BitVec.ofNat 32 s.tmrCnt.toNat), (0x09, BitVec.ofNat 32 s.armValue.toNat),
          (0x0A, s.armEpoch), (0x0B, s.fireEpoch), (0x0C, s.tfireCnt), (0x0D, s.staleCnt), (0x0E, s.oorCnt),
          (0x0F, BitVec.ofNat 32 s.semiMeas.toNat),
          (0x10, (BitVec.ofNat 32 s.numPins <<< 16) ||| BitVec.ofNat 32 s.numSlots) ] →
      exec (.rreg index) s = .next { s with resp := some ⟨.ok, v⟩ })

/-- The codes of POL and FMODE in CTRL and FMODE (30_encoding.md R90); code 3 is never stored (10_state.md R28, R30; it
is no value of the types, log 10). -/
def Obligations.ModeCodesAreThoseOfTheRegisters : Prop :=
  polarityCode .rising = 0#2 ∧ polarityCode .falling = 1#2 ∧ polarityCode .both = 2#2 ∧
  freqModeCode .fixed50 = 0#2 ∧ freqModeCode .fixed60 = 1#2 ∧ freqModeCode .runtime = 2#2 ∧
  ∀ s : State, (ctrlView s).extractLsb' 1 2 ≠ 3#2 ∧ pullupLine s = (ctrlView s).getLsbD 3

/-- A command with an operand that the parameters do not allow (a pin, an id, a mode, a register index or a CTRL value)
answers an error and changes nothing (30_encoding.md R84, R85). -/
def Obligations.IllFormedCommandsAreRefusedWhole : Prop :=
  ∀ (cfg : Config) (s : State) (i : Instr),
    cfg.n = s.numSlots → cfg.npins = s.numPins → i.isCommand = true → i.wellFormed cfg = false →
    ∃ st, st ≠ .ok ∧ exec i s = .next { s with resp := some ⟨st, 0#32⟩ }

/-! ### Zero-cross input and service -/

/-- 41_zero_cross.md R120 to R123: no edge, an edge that does not qualify (disabled, wrong polarity, or closer than
MIN_RETRIG to the last accepted edge), and the latch of a qualifying edge. The count `zcWait` is the model's (log 7). -/
def Obligations.ZeroCrossInputLatchesQualifyingEdges : Prop :=
  ∀ (s : State) (v : Bool),
    (v = s.zcPrev → zcin v s = s) ∧
    (v ≠ s.zcPrev →
      ∀ polarityMatches rejected : Prop,
        (polarityMatches ↔
          (s.pol = .rising ∧ v = true) ∨ (s.pol = .falling ∧ v = false) ∨ s.pol = .both) →
        (rejected ↔
          (s.zcPend = true ∧ (s.now - s.zcCapt).toNat < s.minRetrig.toNat) ∨
          (s.zcPend = false ∧ s.zcState = .cycleActive ∧ (s.now - s.tEdge).toNat < s.minRetrig.toNat)) →
        (s.en = true ∧ polarityMatches ∧ ¬rejected →
          zcin v s = { s with
            zcPrev := v, zcCapt := s.now, zcPend := true, zcWait := (zcin v s).zcWait }) ∧
        (¬(s.en = true ∧ polarityMatches ∧ ¬rejected) → zcin v s = { s with zcPrev := v }))

/-- 41_zero_cross.md R124: SVC_ZC in its order: the sample of the old reference, the epoch, every line down, the new
reference, CycleActive, every FIRED bit cleared, then Schedule. (The wait count is the model's bookkeeping, log 7;
nothing is said of it.) -/
def Obligations.SvcZcRunsTheHandler : Prop :=
  ∀ s : State, s.zcPend = true →
    ∀ sampled : State,
      sampled = (if s.zcState = .cycleActive ∧ (s.fmonCont = true ∨ s.fmonReq = true)
        then freqSample (s.zcCapt - s.tEdge) s else s) →
      ∃ waited, exec .svcZc s = .next (schedule { sampled with
        zcPend := false, zcWait := waited
        epoch := s.epoch + 1#32
        gates := List.replicate s.numPins false
        tEdge := s.zcCapt
        zcState := .cycleActive
        chans := s.chans.map fun c => { c with fired := false } })

/-- What a half-cycle starts with (41_zero_cross.md R124, R125; 42_scheduler_timer.md R150): after SVC_ZC a slot is
marked fired exactly if it is active with a finite delay below the semi-period that has already elapsed since the edge;
a line is high exactly if such a slot names it; PIN, DELAY and ACTIVE are kept; TMR_PEND, FIRE_EPOCH, ZC_CAPT and the
counters of the timer are kept. -/
def Obligations.SvcZcStartsTheHalfCycle : Prop :=
  ∀ s t : State, exec .svcZc s = .next t →
    t.epoch = s.epoch + 1#32 ∧ t.tEdge = s.zcCapt ∧ t.zcState = .cycleActive ∧ t.zcPend = false ∧
    t.tmrPend = s.tmrPend ∧ t.fireEpoch = s.fireEpoch ∧ t.zcCapt = s.zcCapt ∧ t.tfireCnt = s.tfireCnt ∧
    t.staleCnt = s.staleCnt ∧ t.now = s.now ∧
    t.chans = s.chans.map (fun c => { c with
      fired := decide (c.active = true ∧ c.delay ≠ 0xFFFF#16 ∧ c.delay < semi t ∧
        c.delay.toNat ≤ (s.now - s.zcCapt).toNat) }) ∧
    t.gates.length = s.gates.length ∧
    ∀ p, p < s.gates.length →
      (t.gates[p]? = some true ↔ ∃ c ∈ t.chans, c.fired = true ∧ c.pin.toNat = p)

/-! ### Timer, gates and scheduler -/

/-- 42_scheduler_timer.md R140, R141: NOW advances; an armed countdown goes down by one; on reaching 0 the timer disarms
and raises its request with the epoch of the arming, and an unserved older expiry is replaced and counted. The counts
`zcWait` and `tmrWait` are the model's (log 7). -/
def Obligations.TickCountsDownAndExpires : Prop :=
  ∀ s : State,
    (s.tmrArmed = false →
      tick s = { s with now := s.now + 1#32, zcWait := (tick s).zcWait, tmrWait := (tick s).tmrWait }) ∧
    (s.tmrArmed = true → s.tmrCnt ≠ 1#16 →
      tick s = { s with
        now := s.now + 1#32, tmrCnt := s.tmrCnt - 1#16
        zcWait := (tick s).zcWait, tmrWait := (tick s).tmrWait }) ∧
    (s.tmrArmed = true → s.tmrCnt = 1#16 →
      tick s = { s with
        now := s.now + 1#32, tmrCnt := 0#16, tmrArmed := false
        staleCnt := if s.tmrPend = true then s.staleCnt + 1#32 else s.staleCnt
        tmrPend := true, fireEpoch := s.armEpoch
        zcWait := (tick s).zcWait, tmrWait := (tick s).tmrWait })

/-- 60_exceptions.md R222 as the model keeps it (log 7): the counts of TICKs that a pending request has waited, and TICK
enabled exactly while no pending request has waited LAT_MAX of them. -/
def Obligations.LatencyBoundBlocksTheTick : Prop :=
  ∀ s : State,
    (tickEnabled s = true ↔
      (s.zcPend = true → s.zcWait < s.latMax) ∧ (s.tmrPend = true → s.tmrWait < s.latMax)) ∧
    (tick s).zcWait = (if s.zcPend = true then s.zcWait + 1 else 0) ∧
    (tick s).tmrWait = (if s.tmrPend = true then s.tmrWait + 1 else 0)

/-- 42_scheduler_timer.md R149 with R148 and R144: Fire marks exactly the slots that are active, not fired, finite, below
the semi-period and at the given delay; a line is high afterwards exactly if it was high or such a slot names it;
nothing else changes. -/
def Obligations.FireAssertsExactlyTheEligibleChannels : Prop :=
  ∀ (s : State) (v : U16) (chosen : Slot → Prop),
    (∀ c, chosen c ↔
      c.active = true ∧ c.fired = false ∧ c.delay ≠ 0xFFFF#16 ∧ c.delay < semi s ∧ c.delay = v) →
    fire v s = { s with chans := (fire v s).chans, gates := (fire v s).gates } ∧
    (fire v s).chans.length = s.chans.length ∧
    (∀ (i : Nat) (c : Slot), s.chans[i]? = some c → chosen c → (fire v s).chans[i]? = some { c with fired := true }) ∧
    (∀ (i : Nat) (c : Slot), s.chans[i]? = some c → ¬chosen c → (fire v s).chans[i]? = some c) ∧
    (fire v s).gates.length = s.gates.length ∧
    ∀ p, p < s.gates.length →
      ((fire v s).gates[p]? = some true ↔ s.gates[p]? = some true ∨ ∃ c ∈ s.chans, chosen c ∧ c.pin.toNat = p)

/-- 42_scheduler_timer.md R150: Schedule meets the equation of its loop: it cancels when nothing is eligible; otherwise,
for the least eligible delay, it fires at once and starts again when that delay has elapsed, and arms the timer for the
rest when it has not. -/
def Obligations.ScheduleMeetsItsLoop : Prop :=
  ∀ s : State,
    ((∀ c ∈ s.chans, eligible (semi s) c = false) →
      schedule s = { s with tmrArmed := false, tmrCnt := 0#16 }) ∧
    (∀ c ∈ s.chans, eligible (semi s) c = true →
      (∀ d ∈ s.chans, eligible (semi s) d = true → c.delay ≤ d.delay) →
      (c.delay.toNat ≤ (s.now - s.tEdge).toNat → schedule s = schedule (fire c.delay s)) ∧
      ((s.now - s.tEdge).toNat < c.delay.toNat →
        schedule s = { s with
          tmrCnt := BitVec.ofNat 16 (c.delay.toNat - (s.now - s.tEdge).toNat)
          tmrArmed := true, armValue := c.delay, armEpoch := s.epoch }))

/-- 42_scheduler_timer.md R151, DL's queue invariant at the end of every scheduling point: either the timer is disarmed
and no slot is eligible, or it is armed under this epoch for the least eligible delay, which has not elapsed yet, with a
count that ends when it has. -/
def Obligations.ScheduleLeavesTheQueueInvariant : Prop :=
  ∀ s t : State, t = schedule s →
    (t.tmrArmed = false ∧ t.tmrCnt = 0#16 ∧ ∀ c ∈ t.chans, eligible (semi t) c = false) ∨
    (t.tmrArmed = true ∧ t.armEpoch = t.epoch ∧
      (t.now - t.tEdge).toNat + t.tmrCnt.toNat = t.armValue.toNat ∧ 1 ≤ t.tmrCnt.toNat ∧
      (∃ c ∈ t.chans, eligible (semi t) c = true ∧ c.delay = t.armValue) ∧
      ∀ c ∈ t.chans, eligible (semi t) c = true → t.armValue ≤ c.delay)

/-- 42_scheduler_timer.md R152: SVC_TMR drops and counts a firing of another epoch with no gate, FIRED bit or timer state
touched; a live one fires the armed delay and schedules what is left. (The wait count is the model's bookkeeping, log 7;
nothing is said of it.) -/
def Obligations.SvcTmrFiresOnlyItsOwnEpoch : Prop :=
  ∀ s : State, s.tmrPend = true → s.zcPend = false →
    (s.fireEpoch ≠ s.epoch →
      ∃ waited, exec .svcTmr s = .next { s with
        tmrPend := false, tmrWait := waited, tfireCnt := s.tfireCnt + 1#32, staleCnt := s.staleCnt + 1#32 }) ∧
    (s.fireEpoch = s.epoch →
      ∃ waited, exec .svcTmr s = .next (schedule (fire s.armValue { s with
        tmrPend := false, tmrWait := waited, tfireCnt := s.tfireCnt + 1#32 })))

/-- After a live SVC_TMR (42_scheduler_timer.md R149, R150, R152) a slot has FIRED set exactly if it had it before, or it was
eligible and its delay is the armed one or has elapsed; a line is high exactly if it was high before or a slot that got
fired in this step names it; EPOCH, T_EDGE, ZC_STATE and the estimate are kept. -/
def Obligations.LiveSvcTmrFiresWhatIsDue : Prop :=
  ∀ s t : State, s.fireEpoch = s.epoch → exec .svcTmr s = .next t →
    t.epoch = s.epoch ∧ t.tEdge = s.tEdge ∧ t.zcState = s.zcState ∧ t.semiMeas = s.semiMeas ∧
    t.semiValid = s.semiValid ∧ t.oorCnt = s.oorCnt ∧ t.staleCnt = s.staleCnt ∧
    t.tfireCnt = s.tfireCnt + 1#32 ∧ t.tmrPend = false ∧
    ∀ due : Slot → Prop,
      (∀ c, due c ↔
        eligible (semi s) c = true ∧
          (c.delay = s.armValue ∨ c.delay.toNat ≤ (s.now - s.tEdge).toNat)) →
      (∀ (i : Nat) (c : Slot), s.chans[i]? = some c → due c → t.chans[i]? = some { c with fired := true }) ∧
      (∀ (i : Nat) (c : Slot), s.chans[i]? = some c → ¬due c → t.chans[i]? = some c) ∧
      ∀ p, p < s.gates.length →
        (t.gates[p]? = some true ↔ s.gates[p]? = some true ∨ ∃ c ∈ s.chans, due c ∧ c.pin.toNat = p)

/-- 42_scheduler_timer.md R153 (a): an expiry of this epoch that waits while the zero-cross request is served is stale
afterwards, and the SVC_TMR that follows only drops and counts it. -/
def Obligations.EdgeBeforeExpiryMakesItStale : Prop :=
  ∀ s t : State, s.zcPend = true → s.tmrPend = true → s.fireEpoch = s.epoch → exec .svcZc s = .next t →
    ∃ waited, exec .svcTmr t = .next { t with
      tmrPend := false, tmrWait := waited, tfireCnt := s.tfireCnt + 1#32, staleCnt := s.staleCnt + 1#32 }

/-! ### Reset -/

/-- What the step RESET leaves in every piece of state of 10_state.md R20 (10_state.md R49, 70_reset_and_hazards.md R250,
00_scope.md R12). The model's choice (log 13): the level of the zero-cross input comes with the event; N, NPINS, LAT_MAX
and the inputs still to come stay; the wait counts become 0 and the response port empty. -/
def Obligations.ResetClearsEveryPieceOfState : Prop :=
  ∀ (s : State) (v : Bool) (rest : List Event), s.inputs = .reset v :: rest →
    ∃ t, step s = .next t ∧
      t.chans = List.replicate s.numSlots { pin := 0#8, delay := 0xFFFF#16, active := false, fired := false } ∧
      t.gates = List.replicate s.numPins false ∧
      t.en = false ∧ t.pol = .rising ∧ t.pullup = false ∧ t.fmonCont = false ∧ t.minRetrig = 0#16 ∧
      t.fmode = .fixed50 ∧ t.fmonReq = false ∧ t.semiMeas = 0#16 ∧ t.semiValid = false ∧ t.oorCnt = 0#32 ∧
      t.zcPrev = v ∧ t.zcPend = false ∧ t.zcCapt = 0#32 ∧ t.zcState = .idle ∧ t.tEdge = 0#32 ∧ t.epoch = 0#32 ∧
      t.now = 0#32 ∧ t.tmrArmed = false ∧ t.tmrCnt = 0#16 ∧ t.armValue = 0#16 ∧ t.armEpoch = 0#32 ∧
      t.tmrPend = false ∧ t.fireEpoch = 0#32 ∧ t.tfireCnt = 0#32 ∧ t.staleCnt = 0#32 ∧
      t.latMax = s.latMax ∧ t.zcWait = 0 ∧ t.tmrWait = 0 ∧ t.resp = none ∧ t.inputs = rest

/-! ### Invariants -/

/-- The invariants hold after reset, for all parameters in range (10_state.md R48, R49), so also for those that
`State.reset` takes (log 1). -/
def Obligations.InvariantHoldsAfterReset : Prop :=
  (∀ cfg : Config, cfg.InRange → (State.resetWith cfg).Inv) ∧ State.reset.Inv

/-- Every step of the machine keeps the invariants, from every state that has them (10_state.md R48). -/
def Obligations.EveryStepKeepsTheInvariant : Prop :=
  ∀ s t : State, s.Inv → step s = .next t → t.Inv

/-- The parameters are fixed: no step changes the number of slots, the number of gate lines or the latency bound
(00_scope.md R5, R12). -/
def Obligations.ParametersNeverChange : Prop :=
  ∀ s t : State, step s = .next t →
    t.numSlots = s.numSlots ∧ t.numPins = s.numPins ∧ t.latMax = s.latMax

/-- 10_state.md R48 (b), (g), step by step: the TICK in which the timer expires raises a request of this epoch for the
armed delay, which has just elapsed; and a request that waits keeps its epoch, with the timer disarmed and the armed
value and epoch as they are, in every step that is no service, no WREG of CTRL with `EN = 0` and no RESET. -/
def Obligations.ExpiryKeepsItsArmingUntilServed : Prop :=
  ∀ s t : State, s.Inv → step s = .next t →
    ((select s).kind = .tick → s.tmrArmed = true → t.tmrArmed = false →
      t.tmrPend = true ∧ t.fireEpoch = t.epoch ∧ t.epoch = s.epoch ∧ t.armValue = s.armValue ∧
        t.armEpoch = s.armEpoch ∧ t.now - t.tEdge = t.armValue.setWidth 32) ∧
    (s.tmrPend = true → s.tmrArmed = false → (∀ i, (select s).kind ≠ .service i) → (∀ v, (select s).kind ≠ .reset v) →
      (∀ u value, fetch s = .run (.wreg 0#8 value) u → value.toNat % 2 = 1) →
      t.tmrPend = true ∧ t.tmrArmed = false ∧ t.fireEpoch = s.fireEpoch ∧ t.epoch = s.epoch ∧
        t.armValue = s.armValue ∧ t.armEpoch = s.armEpoch)

/-! ### Rules over the whole machine -/

/-- 20_memory.md R68, 42_scheduler_timer.md R152: a gate line rises only in a step that serves the zero-cross request, or
serves a timer request of the current epoch; and then a slot that this step left active and fired names the line. -/
def Obligations.GatesRiseOnlyInLiveServices : Prop :=
  ∀ (s t : State) (p : Nat), step s = .next t → s.gates[p]? = some false → t.gates[p]? = some true →
    ((∃ u, fetch s = .run .svcZc u) ∨ ((∃ u, fetch s = .run .svcTmr u) ∧ s.fireEpoch = s.epoch)) ∧
    ∃ c ∈ t.chans, c.active = true ∧ c.fired = true ∧ c.pin.toNat = p

/-- 10_state.md R45, 70_reset_and_hazards.md R260: a line that is high falls only in SVC_ZC, in a WREG of CTRL with
`EN = 0`, or in RESET. -/
def Obligations.GatesFallOnlyAtEdgeQuiesceOrReset : Prop :=
  ∀ (s t : State) (p : Nat), step s = .next t → s.gates[p]? = some true → t.gates[p]? = some false →
    (∃ u, fetch s = .run .svcZc u) ∨
    (∃ u value, fetch s = .run (.wreg 0#8 value) u ∧ value.toNat % 2 = 0) ∨
    ∃ v, (select s).kind = .reset v

/-- 10_state.md R37, 41_zero_cross.md R126: but for RESET, the epoch changes only in SVC_ZC, by one, and the synchronizer
goes to CycleActive only there; it returns to Idle only by a WREG of CTRL with `EN = 0`. -/
def Obligations.EpochAndCycleChangeOnlyAtServices : Prop :=
  ∀ s t : State, step s = .next t → (∀ v, (select s).kind ≠ .reset v) →
    ((∃ u, fetch s = .run .svcZc u) ∧ t.epoch = s.epoch + 1#32 ∧ t.zcState = .cycleActive) ∨
    ((∃ u value, fetch s = .run (.wreg 0#8 value) u ∧ value.toNat % 2 = 0) ∧ t.epoch = s.epoch ∧
      (t.zcState = .idle ∨ t.zcState = s.zcState)) ∨
    (t.epoch = s.epoch ∧ t.zcState = s.zcState)

/-- 60_exceptions.md R225, 20_memory.md R69: what a host command may write. Every command leaves the time, the edge
detector, the epoch, the armed value, the fire epoch, the estimate and the counters alone; only a WREG of CTRL with
`EN = 0` touches the timer, the pending bits, the gate lines or the synchronizer; PIN and ACTIVE change only by REGISTER
and RELEASE, DELAY only by REGISTER and SETDELAY. That LAT_MAX, the queue of inputs and, but for a quiesce, the wait
counts are kept, and that the response port is left open, is about the model's own fields (log 1, 2, 7, 6). -/
def Obligations.HostCommandsWriteOnlyTheirState : Prop :=
  ∀ (i : Instr) (s t : State), i.isCommand = true → exec i s = .next t →
    t = { s with
      chans := t.chans, en := t.en, pol := t.pol, pullup := t.pullup, fmonCont := t.fmonCont, minRetrig := t.minRetrig
      fmode := t.fmode, fmonReq := t.fmonReq, zcPend := t.zcPend, zcState := t.zcState, tmrArmed := t.tmrArmed
      tmrCnt := t.tmrCnt, tmrPend := t.tmrPend, gates := t.gates, zcWait := t.zcWait, tmrWait := t.tmrWait
      resp := t.resp } ∧
    ((¬∃ value : U16, i = .wreg 0#8 value ∧ value.toNat % 2 = 0) →
      t.zcPend = s.zcPend ∧ t.zcState = s.zcState ∧ t.tmrArmed = s.tmrArmed ∧ t.tmrCnt = s.tmrCnt ∧
      t.tmrPend = s.tmrPend ∧ t.gates = s.gates ∧ t.zcWait = s.zcWait ∧ t.tmrWait = s.tmrWait) ∧
    ((∀ pin, i ≠ .register pin) → (∀ id, i ≠ .release id) →
      t.chans.map (·.pin) = s.chans.map (·.pin) ∧ t.chans.map (·.active) = s.chans.map (·.active)) ∧
    ((∀ pin, i ≠ .register pin) → (∀ id delay, i ≠ .setdelay id delay) →
      t.chans.map (·.delay) = s.chans.map (·.delay)) ∧
    ((∀ pin, i ≠ .register pin) → (¬∃ value : U16, i = .wreg 0#8 value ∧ value.toNat % 2 = 0) →
      t.chans.map (·.fired) = s.chans.map (·.fired)) ∧
    ((∀ index value, i ≠ .wreg index value) →
      t.en = s.en ∧ t.pol = s.pol ∧ t.pullup = s.pullup ∧ t.fmonCont = s.fmonCont ∧ t.minRetrig = s.minRetrig) ∧
    ((∀ mode, i ≠ .setfmode mode) → t.fmode = s.fmode) ∧ (i ≠ .measure → t.fmonReq = s.fmonReq)

/-- 60_exceptions.md R225: what a service may write. Neither service writes PIN, DELAY or ACTIVE, the CTRL fields,
MIN_RETRIG, FMODE, the time or the edge detector's captures; SVC_TMR writes nothing of the synchronizer or the estimate,
and SVC_ZC nothing of the timer request. The rest is the model's choice and no rule of R225: each service keeps the
response port (log 6), the wait count of the other request (log 7), the queue of inputs (log 2) and LAT_MAX (log 1). -/
def Obligations.ServicesWriteOnlyTheirState : Prop :=
  ∀ s t : State,
    (exec .svcZc s = .next t →
      t = { s with
        chans := t.chans, gates := t.gates, zcPend := t.zcPend, zcWait := t.zcWait, epoch := t.epoch, tEdge := t.tEdge
        zcState := t.zcState, tmrArmed := t.tmrArmed, tmrCnt := t.tmrCnt, armValue := t.armValue
        armEpoch := t.armEpoch, semiMeas := t.semiMeas, semiValid := t.semiValid, fmonReq := t.fmonReq
        oorCnt := t.oorCnt } ∧
      t.chans.map (fun c => { c with fired := false }) = s.chans.map (fun c => { c with fired := false })) ∧
    (exec .svcTmr s = .next t →
      t = { s with
        chans := t.chans, gates := t.gates, tmrPend := t.tmrPend, tmrWait := t.tmrWait, tmrArmed := t.tmrArmed
        tmrCnt := t.tmrCnt, armValue := t.armValue, armEpoch := t.armEpoch, tfireCnt := t.tfireCnt
        staleCnt := t.staleCnt } ∧
      t.chans.map (fun c => { c with fired := false }) = s.chans.map (fun c => { c with fired := false }))

/-- 10_state.md R22, R25: but for RESET, an active slot's PIN is immutable; a FIRED bit, once set, is cleared only by
SVC_ZC, by a REGISTER that takes the slot, or by a WREG of CTRL with `EN = 0`, so a channel fires at most once in a
half-cycle. -/
def Obligations.PinIsImmutableAndFiredIsKept : Prop :=
  ∀ (s t : State) (k : Nat) (c d : Slot), step s = .next t → (∀ v, (select s).kind ≠ .reset v) →
    s.chans[k]? = some c → t.chans[k]? = some d →
    (c.active = true → d.pin = c.pin) ∧
    (c.fired = true → d.fired = false →
      (∃ u, fetch s = .run .svcZc u) ∨ (∃ u pin, fetch s = .run (.register pin) u ∧ c.active = false) ∨
      ∃ u value, fetch s = .run (.wreg 0#8 value) u ∧ value.toNat % 2 = 0)

/-- 20_memory.md R67: reads have no side effect. -/
def Obligations.ReadsChangeNothing : Prop :=
  ∀ (i : Instr) (s t : State),
    (i = .getsemi ∨ i = .getfreq ∨ (∃ id, i = .getdelay id) ∨ (∃ id, i = .getchan id) ∨ ∃ index, i = .rreg index) →
    exec i s = .next t → t = { s with resp := t.resp }

/-- The diagnostic counters influence nothing else (10_state.md R43; 92_eei_decisions.md D8): two states that differ only
in them and in the response port step to states that differ only in them and in the response port. -/
def Obligations.DiagnosticCountersInfluenceNothing : Prop :=
  ∀ s₁ s₂ t₁ t₂ : State, s₁.withoutDiagnostics = s₂.withoutDiagnostics →
    step s₁ = .next t₁ → step s₂ = .next t₂ → t₁.withoutDiagnostics = t₂.withoutDiagnostics

/-- The firing time of 42_scheduler_timer.md R154 for the block left to itself (no input: what is pending is served at
once and time goes on, log 3): from a quiescent state with the timer armed, the lines stay as they are until the elapsed
time equals the armed delay, and the very next step then asserts the line of every eligible channel with that delay. -/
def Obligations.ArmedDelayFiresOnTime : Prop :=
  ∀ s : State, s.Inv → s.Quiescent → s.inputs = [] → s.tmrArmed = true →
    (∀ k, k ≤ s.tmrCnt.toNat → ∃ t, Sys2Proof.core.run k s = .next t ∧ t.gates = s.gates ∧
      t.now = s.now + BitVec.ofNat 32 k) ∧
    ∃ t u, Sys2Proof.core.run s.tmrCnt.toNat s = .next t ∧ t.now - t.tEdge = s.armValue.setWidth 32 ∧
      step t = .next u ∧ u.now = t.now ∧
      ∀ c ∈ s.chans, eligible (semi s) c = true → c.delay = s.armValue → u.gates[c.pin.toNat]? = some true
end

