-- ==== Sys2Proof/Laws/Decode.lean ====
section
/-! SUPPORT. The bits of a command word, and when a word decodes to a command. -/
namespace Sys2Proof

/-- A word that matches a row has the row's opcode, if the row's mask keeps the opcode. -/
theorem opField_of_match (w mask pattern : U32) (h : w &&& mask = pattern)
    (hm : mask.extractLsb' 28 4 = 0xF#4) : opField w = pattern.extractLsb' 28 4 := by
  subst h
  rw [opField, BitVec.extractLsb'_and, hm]
  exact (BitVec.and_allOnes (x := w.extractLsb' 28 4)).symm

/-- Each bit of the word that the encoder assembles (30_encoding.md R82). -/
theorem commandWord_getLsbD (o : U4) (a : U8) (b : U16) (i : Nat) :
    (commandWord o a b).getLsbD i =
      if i < 16 then b.getLsbD i else if i < 24 then a.getLsbD (i - 16)
      else if i < 28 then false else o.getLsbD (i - 28) := by
  unfold commandWord
  rw [BitVec.getLsbD_append, BitVec.getLsbD_append, BitVec.getLsbD_append]
  by_cases h1 : i < 16
  · simp [h1]
  by_cases h2 : i < 24
  · simp [h1, h2, show i - 16 < 8 by omega]
  by_cases h3 : i < 28
  · simp [h1, h2, h3, show i - 16 - 8 < 4 by omega, show ¬i - 16 < 8 by omega]
  · simp [h1, h2, h3, show ¬i - 16 - 8 < 4 by omega, show ¬i - 16 < 8 by omega]
    congr 1

@[simp] theorem opField_commandWord (o : U4) (a : U8) (b : U16) : opField (commandWord o a b) = o := by
  unfold opField
  ext i hi
  rw [BitVec.getElem_extractLsb', commandWord_getLsbD]
  simp [show ¬28 + i < 16 by omega, show ¬28 + i < 24 by omega, hi]

@[simp] theorem aField_commandWord (o : U4) (a : U8) (b : U16) : aField (commandWord o a b) = a := by
  unfold aField
  ext i hi
  rw [BitVec.getElem_extractLsb', commandWord_getLsbD]
  simp [show ¬16 + i < 16 by omega, show 16 + i < 24 by omega, hi]

@[simp] theorem bField_commandWord (o : U4) (a : U8) (b : U16) : bField (commandWord o a b) = b := by
  unfold bField
  ext i hi
  rw [BitVec.getElem_extractLsb', commandWord_getLsbD]
  simp [hi]

/-- Masking a word that the encoder assembles, bit by bit. -/
theorem commandWord_and (o : U4) (a : U8) (b : U16) (mask pattern : U32)
    (h : ∀ i < 32, ((commandWord o a b).getLsbD i && mask.getLsbD i) = pattern.getLsbD i) :
    commandWord o a b &&& mask = pattern := by
  refine BitVec.eq_of_getLsbD_eq fun i hi => ?_
  rw [BitVec.getLsbD_and]
  exact h i hi

/-- A word decodes to a command exactly if it matches the row with its opcode (30_encoding.md R85). -/
theorem decode_eq_command (w : U32) (i : Instr) :
    decode w = .command i ↔
      ∃ row, commandRows[(opField w).toNat]? = some row ∧ w &&& row.mask = row.pattern ∧
        row.assemble (aField w) (bField w) = i := by
  unfold decode
  split
  · rename_i h; simp [h]
  · rename_i row h
    simp only [h, Option.some.injEq, exists_eq_left']
    split <;> simp_all

end Sys2Proof
end

