-- ==== Sys2Proof/Laws/State.lean ====
section
/-! SUPPORT. One lemma per field per update of the state, true by rfl, so that no proof unfolds a record update. -/
namespace Sys2Proof.Machine

/-! `respond` -/

@[simp] theorem respond_chans (st : Status) (d : U32) (s : State) : (respond st d s).chans = s.chans := rfl
@[simp] theorem respond_en (st : Status) (d : U32) (s : State) : (respond st d s).en = s.en := rfl
@[simp] theorem respond_pol (st : Status) (d : U32) (s : State) : (respond st d s).pol = s.pol := rfl
@[simp] theorem respond_pullup (st : Status) (d : U32) (s : State) : (respond st d s).pullup = s.pullup := rfl
@[simp] theorem respond_fmonCont (st : Status) (d : U32) (s : State) : (respond st d s).fmonCont = s.fmonCont := rfl
@[simp] theorem respond_minRetrig (st : Status) (d : U32) (s : State) :
    (respond st d s).minRetrig = s.minRetrig := rfl
@[simp] theorem respond_fmode (st : Status) (d : U32) (s : State) : (respond st d s).fmode = s.fmode := rfl
@[simp] theorem respond_fmonReq (st : Status) (d : U32) (s : State) : (respond st d s).fmonReq = s.fmonReq := rfl
@[simp] theorem respond_semiMeas (st : Status) (d : U32) (s : State) : (respond st d s).semiMeas = s.semiMeas := rfl
@[simp] theorem respond_semiValid (st : Status) (d : U32) (s : State) :
    (respond st d s).semiValid = s.semiValid := rfl
@[simp] theorem respond_oorCnt (st : Status) (d : U32) (s : State) : (respond st d s).oorCnt = s.oorCnt := rfl
@[simp] theorem respond_zcPrev (st : Status) (d : U32) (s : State) : (respond st d s).zcPrev = s.zcPrev := rfl
@[simp] theorem respond_zcPend (st : Status) (d : U32) (s : State) : (respond st d s).zcPend = s.zcPend := rfl
@[simp] theorem respond_zcCapt (st : Status) (d : U32) (s : State) : (respond st d s).zcCapt = s.zcCapt := rfl
@[simp] theorem respond_zcState (st : Status) (d : U32) (s : State) : (respond st d s).zcState = s.zcState := rfl
@[simp] theorem respond_tEdge (st : Status) (d : U32) (s : State) : (respond st d s).tEdge = s.tEdge := rfl
@[simp] theorem respond_epoch (st : Status) (d : U32) (s : State) : (respond st d s).epoch = s.epoch := rfl
@[simp] theorem respond_now (st : Status) (d : U32) (s : State) : (respond st d s).now = s.now := rfl
@[simp] theorem respond_tmrArmed (st : Status) (d : U32) (s : State) : (respond st d s).tmrArmed = s.tmrArmed := rfl
@[simp] theorem respond_tmrCnt (st : Status) (d : U32) (s : State) : (respond st d s).tmrCnt = s.tmrCnt := rfl
@[simp] theorem respond_armValue (st : Status) (d : U32) (s : State) : (respond st d s).armValue = s.armValue := rfl
@[simp] theorem respond_armEpoch (st : Status) (d : U32) (s : State) : (respond st d s).armEpoch = s.armEpoch := rfl
@[simp] theorem respond_tmrPend (st : Status) (d : U32) (s : State) : (respond st d s).tmrPend = s.tmrPend := rfl
@[simp] theorem respond_fireEpoch (st : Status) (d : U32) (s : State) :
    (respond st d s).fireEpoch = s.fireEpoch := rfl
@[simp] theorem respond_tfireCnt (st : Status) (d : U32) (s : State) : (respond st d s).tfireCnt = s.tfireCnt := rfl
@[simp] theorem respond_staleCnt (st : Status) (d : U32) (s : State) : (respond st d s).staleCnt = s.staleCnt := rfl
@[simp] theorem respond_gates (st : Status) (d : U32) (s : State) : (respond st d s).gates = s.gates := rfl
@[simp] theorem respond_latMax (st : Status) (d : U32) (s : State) : (respond st d s).latMax = s.latMax := rfl
@[simp] theorem respond_zcWait (st : Status) (d : U32) (s : State) : (respond st d s).zcWait = s.zcWait := rfl
@[simp] theorem respond_tmrWait (st : Status) (d : U32) (s : State) : (respond st d s).tmrWait = s.tmrWait := rfl
@[simp] theorem respond_resp (st : Status) (d : U32) (s : State) : (respond st d s).resp = some ⟨st, d⟩ := rfl
@[simp] theorem respond_inputs (st : Status) (d : U32) (s : State) : (respond st d s).inputs = s.inputs := rfl

/-! `setSlot` -/

@[simp] theorem setSlot_chans (i : Nat) (c : Slot) (s : State) : (setSlot i c s).chans = s.chans.set i c := rfl
@[simp] theorem setSlot_en (i : Nat) (c : Slot) (s : State) : (setSlot i c s).en = s.en := rfl
@[simp] theorem setSlot_pol (i : Nat) (c : Slot) (s : State) : (setSlot i c s).pol = s.pol := rfl
@[simp] theorem setSlot_pullup (i : Nat) (c : Slot) (s : State) : (setSlot i c s).pullup = s.pullup := rfl
@[simp] theorem setSlot_fmonCont (i : Nat) (c : Slot) (s : State) : (setSlot i c s).fmonCont = s.fmonCont := rfl
@[simp] theorem setSlot_minRetrig (i : Nat) (c : Slot) (s : State) : (setSlot i c s).minRetrig = s.minRetrig := rfl
@[simp] theorem setSlot_fmode (i : Nat) (c : Slot) (s : State) : (setSlot i c s).fmode = s.fmode := rfl
@[simp] theorem setSlot_fmonReq (i : Nat) (c : Slot) (s : State) : (setSlot i c s).fmonReq = s.fmonReq := rfl
@[simp] theorem setSlot_semiMeas (i : Nat) (c : Slot) (s : State) : (setSlot i c s).semiMeas = s.semiMeas := rfl
@[simp] theorem setSlot_semiValid (i : Nat) (c : Slot) (s : State) : (setSlot i c s).semiValid = s.semiValid := rfl
@[simp] theorem setSlot_oorCnt (i : Nat) (c : Slot) (s : State) : (setSlot i c s).oorCnt = s.oorCnt := rfl
@[simp] theorem setSlot_zcPrev (i : Nat) (c : Slot) (s : State) : (setSlot i c s).zcPrev = s.zcPrev := rfl
@[simp] theorem setSlot_zcPend (i : Nat) (c : Slot) (s : State) : (setSlot i c s).zcPend = s.zcPend := rfl
@[simp] theorem setSlot_zcCapt (i : Nat) (c : Slot) (s : State) : (setSlot i c s).zcCapt = s.zcCapt := rfl
@[simp] theorem setSlot_zcState (i : Nat) (c : Slot) (s : State) : (setSlot i c s).zcState = s.zcState := rfl
@[simp] theorem setSlot_tEdge (i : Nat) (c : Slot) (s : State) : (setSlot i c s).tEdge = s.tEdge := rfl
@[simp] theorem setSlot_epoch (i : Nat) (c : Slot) (s : State) : (setSlot i c s).epoch = s.epoch := rfl
@[simp] theorem setSlot_now (i : Nat) (c : Slot) (s : State) : (setSlot i c s).now = s.now := rfl
@[simp] theorem setSlot_tmrArmed (i : Nat) (c : Slot) (s : State) : (setSlot i c s).tmrArmed = s.tmrArmed := rfl
@[simp] theorem setSlot_tmrCnt (i : Nat) (c : Slot) (s : State) : (setSlot i c s).tmrCnt = s.tmrCnt := rfl
@[simp] theorem setSlot_armValue (i : Nat) (c : Slot) (s : State) : (setSlot i c s).armValue = s.armValue := rfl
@[simp] theorem setSlot_armEpoch (i : Nat) (c : Slot) (s : State) : (setSlot i c s).armEpoch = s.armEpoch := rfl
@[simp] theorem setSlot_tmrPend (i : Nat) (c : Slot) (s : State) : (setSlot i c s).tmrPend = s.tmrPend := rfl
@[simp] theorem setSlot_fireEpoch (i : Nat) (c : Slot) (s : State) : (setSlot i c s).fireEpoch = s.fireEpoch := rfl
@[simp] theorem setSlot_tfireCnt (i : Nat) (c : Slot) (s : State) : (setSlot i c s).tfireCnt = s.tfireCnt := rfl
@[simp] theorem setSlot_staleCnt (i : Nat) (c : Slot) (s : State) : (setSlot i c s).staleCnt = s.staleCnt := rfl
@[simp] theorem setSlot_gates (i : Nat) (c : Slot) (s : State) : (setSlot i c s).gates = s.gates := rfl
@[simp] theorem setSlot_latMax (i : Nat) (c : Slot) (s : State) : (setSlot i c s).latMax = s.latMax := rfl
@[simp] theorem setSlot_zcWait (i : Nat) (c : Slot) (s : State) : (setSlot i c s).zcWait = s.zcWait := rfl
@[simp] theorem setSlot_tmrWait (i : Nat) (c : Slot) (s : State) : (setSlot i c s).tmrWait = s.tmrWait := rfl
@[simp] theorem setSlot_resp (i : Nat) (c : Slot) (s : State) : (setSlot i c s).resp = s.resp := rfl
@[simp] theorem setSlot_inputs (i : Nat) (c : Slot) (s : State) : (setSlot i c s).inputs = s.inputs := rfl

/-! `clearFired` -/

@[simp] theorem clearFired_chans (s : State) :
    (clearFired s).chans = s.chans.map fun c => { c with fired := false } := rfl
@[simp] theorem clearFired_en (s : State) : (clearFired s).en = s.en := rfl
@[simp] theorem clearFired_pol (s : State) : (clearFired s).pol = s.pol := rfl
@[simp] theorem clearFired_pullup (s : State) : (clearFired s).pullup = s.pullup := rfl
@[simp] theorem clearFired_fmonCont (s : State) : (clearFired s).fmonCont = s.fmonCont := rfl
@[simp] theorem clearFired_minRetrig (s : State) : (clearFired s).minRetrig = s.minRetrig := rfl
@[simp] theorem clearFired_fmode (s : State) : (clearFired s).fmode = s.fmode := rfl
@[simp] theorem clearFired_fmonReq (s : State) : (clearFired s).fmonReq = s.fmonReq := rfl
@[simp] theorem clearFired_semiMeas (s : State) : (clearFired s).semiMeas = s.semiMeas := rfl
@[simp] theorem clearFired_semiValid (s : State) : (clearFired s).semiValid = s.semiValid := rfl
@[simp] theorem clearFired_oorCnt (s : State) : (clearFired s).oorCnt = s.oorCnt := rfl
@[simp] theorem clearFired_zcPrev (s : State) : (clearFired s).zcPrev = s.zcPrev := rfl
@[simp] theorem clearFired_zcPend (s : State) : (clearFired s).zcPend = s.zcPend := rfl
@[simp] theorem clearFired_zcCapt (s : State) : (clearFired s).zcCapt = s.zcCapt := rfl
@[simp] theorem clearFired_zcState (s : State) : (clearFired s).zcState = s.zcState := rfl
@[simp] theorem clearFired_tEdge (s : State) : (clearFired s).tEdge = s.tEdge := rfl
@[simp] theorem clearFired_epoch (s : State) : (clearFired s).epoch = s.epoch := rfl
@[simp] theorem clearFired_now (s : State) : (clearFired s).now = s.now := rfl
@[simp] theorem clearFired_tmrArmed (s : State) : (clearFired s).tmrArmed = s.tmrArmed := rfl
@[simp] theorem clearFired_tmrCnt (s : State) : (clearFired s).tmrCnt = s.tmrCnt := rfl
@[simp] theorem clearFired_armValue (s : State) : (clearFired s).armValue = s.armValue := rfl
@[simp] theorem clearFired_armEpoch (s : State) : (clearFired s).armEpoch = s.armEpoch := rfl
@[simp] theorem clearFired_tmrPend (s : State) : (clearFired s).tmrPend = s.tmrPend := rfl
@[simp] theorem clearFired_fireEpoch (s : State) : (clearFired s).fireEpoch = s.fireEpoch := rfl
@[simp] theorem clearFired_tfireCnt (s : State) : (clearFired s).tfireCnt = s.tfireCnt := rfl
@[simp] theorem clearFired_staleCnt (s : State) : (clearFired s).staleCnt = s.staleCnt := rfl
@[simp] theorem clearFired_gates (s : State) : (clearFired s).gates = s.gates := rfl
@[simp] theorem clearFired_latMax (s : State) : (clearFired s).latMax = s.latMax := rfl
@[simp] theorem clearFired_zcWait (s : State) : (clearFired s).zcWait = s.zcWait := rfl
@[simp] theorem clearFired_tmrWait (s : State) : (clearFired s).tmrWait = s.tmrWait := rfl
@[simp] theorem clearFired_resp (s : State) : (clearFired s).resp = s.resp := rfl
@[simp] theorem clearFired_inputs (s : State) : (clearFired s).inputs = s.inputs := rfl

/-! `assertGate` -/

@[simp] theorem assertGate_chans (pin : U8) (s : State) : (assertGate pin s).chans = s.chans := rfl
@[simp] theorem assertGate_en (pin : U8) (s : State) : (assertGate pin s).en = s.en := rfl
@[simp] theorem assertGate_pol (pin : U8) (s : State) : (assertGate pin s).pol = s.pol := rfl
@[simp] theorem assertGate_pullup (pin : U8) (s : State) : (assertGate pin s).pullup = s.pullup := rfl
@[simp] theorem assertGate_fmonCont (pin : U8) (s : State) : (assertGate pin s).fmonCont = s.fmonCont := rfl
@[simp] theorem assertGate_minRetrig (pin : U8) (s : State) : (assertGate pin s).minRetrig = s.minRetrig := rfl
@[simp] theorem assertGate_fmode (pin : U8) (s : State) : (assertGate pin s).fmode = s.fmode := rfl
@[simp] theorem assertGate_fmonReq (pin : U8) (s : State) : (assertGate pin s).fmonReq = s.fmonReq := rfl
@[simp] theorem assertGate_semiMeas (pin : U8) (s : State) : (assertGate pin s).semiMeas = s.semiMeas := rfl
@[simp] theorem assertGate_semiValid (pin : U8) (s : State) : (assertGate pin s).semiValid = s.semiValid := rfl
@[simp] theorem assertGate_oorCnt (pin : U8) (s : State) : (assertGate pin s).oorCnt = s.oorCnt := rfl
@[simp] theorem assertGate_zcPrev (pin : U8) (s : State) : (assertGate pin s).zcPrev = s.zcPrev := rfl
@[simp] theorem assertGate_zcPend (pin : U8) (s : State) : (assertGate pin s).zcPend = s.zcPend := rfl
@[simp] theorem assertGate_zcCapt (pin : U8) (s : State) : (assertGate pin s).zcCapt = s.zcCapt := rfl
@[simp] theorem assertGate_zcState (pin : U8) (s : State) : (assertGate pin s).zcState = s.zcState := rfl
@[simp] theorem assertGate_tEdge (pin : U8) (s : State) : (assertGate pin s).tEdge = s.tEdge := rfl
@[simp] theorem assertGate_epoch (pin : U8) (s : State) : (assertGate pin s).epoch = s.epoch := rfl
@[simp] theorem assertGate_now (pin : U8) (s : State) : (assertGate pin s).now = s.now := rfl
@[simp] theorem assertGate_tmrArmed (pin : U8) (s : State) : (assertGate pin s).tmrArmed = s.tmrArmed := rfl
@[simp] theorem assertGate_tmrCnt (pin : U8) (s : State) : (assertGate pin s).tmrCnt = s.tmrCnt := rfl
@[simp] theorem assertGate_armValue (pin : U8) (s : State) : (assertGate pin s).armValue = s.armValue := rfl
@[simp] theorem assertGate_armEpoch (pin : U8) (s : State) : (assertGate pin s).armEpoch = s.armEpoch := rfl
@[simp] theorem assertGate_tmrPend (pin : U8) (s : State) : (assertGate pin s).tmrPend = s.tmrPend := rfl
@[simp] theorem assertGate_fireEpoch (pin : U8) (s : State) : (assertGate pin s).fireEpoch = s.fireEpoch := rfl
@[simp] theorem assertGate_tfireCnt (pin : U8) (s : State) : (assertGate pin s).tfireCnt = s.tfireCnt := rfl
@[simp] theorem assertGate_staleCnt (pin : U8) (s : State) : (assertGate pin s).staleCnt = s.staleCnt := rfl
@[simp] theorem assertGate_gates (pin : U8) (s : State) : (assertGate pin s).gates = s.gates.set pin.toNat true := rfl
@[simp] theorem assertGate_latMax (pin : U8) (s : State) : (assertGate pin s).latMax = s.latMax := rfl
@[simp] theorem assertGate_zcWait (pin : U8) (s : State) : (assertGate pin s).zcWait = s.zcWait := rfl
@[simp] theorem assertGate_tmrWait (pin : U8) (s : State) : (assertGate pin s).tmrWait = s.tmrWait := rfl
@[simp] theorem assertGate_resp (pin : U8) (s : State) : (assertGate pin s).resp = s.resp := rfl
@[simp] theorem assertGate_inputs (pin : U8) (s : State) : (assertGate pin s).inputs = s.inputs := rfl

/-! `deassertAll` -/

@[simp] theorem deassertAll_chans (s : State) : (deassertAll s).chans = s.chans := rfl
@[simp] theorem deassertAll_en (s : State) : (deassertAll s).en = s.en := rfl
@[simp] theorem deassertAll_pol (s : State) : (deassertAll s).pol = s.pol := rfl
@[simp] theorem deassertAll_pullup (s : State) : (deassertAll s).pullup = s.pullup := rfl
@[simp] theorem deassertAll_fmonCont (s : State) : (deassertAll s).fmonCont = s.fmonCont := rfl
@[simp] theorem deassertAll_minRetrig (s : State) : (deassertAll s).minRetrig = s.minRetrig := rfl
@[simp] theorem deassertAll_fmode (s : State) : (deassertAll s).fmode = s.fmode := rfl
@[simp] theorem deassertAll_fmonReq (s : State) : (deassertAll s).fmonReq = s.fmonReq := rfl
@[simp] theorem deassertAll_semiMeas (s : State) : (deassertAll s).semiMeas = s.semiMeas := rfl
@[simp] theorem deassertAll_semiValid (s : State) : (deassertAll s).semiValid = s.semiValid := rfl
@[simp] theorem deassertAll_oorCnt (s : State) : (deassertAll s).oorCnt = s.oorCnt := rfl
@[simp] theorem deassertAll_zcPrev (s : State) : (deassertAll s).zcPrev = s.zcPrev := rfl
@[simp] theorem deassertAll_zcPend (s : State) : (deassertAll s).zcPend = s.zcPend := rfl
@[simp] theorem deassertAll_zcCapt (s : State) : (deassertAll s).zcCapt = s.zcCapt := rfl
@[simp] theorem deassertAll_zcState (s : State) : (deassertAll s).zcState = s.zcState := rfl
@[simp] theorem deassertAll_tEdge (s : State) : (deassertAll s).tEdge = s.tEdge := rfl
@[simp] theorem deassertAll_epoch (s : State) : (deassertAll s).epoch = s.epoch := rfl
@[simp] theorem deassertAll_now (s : State) : (deassertAll s).now = s.now := rfl
@[simp] theorem deassertAll_tmrArmed (s : State) : (deassertAll s).tmrArmed = s.tmrArmed := rfl
@[simp] theorem deassertAll_tmrCnt (s : State) : (deassertAll s).tmrCnt = s.tmrCnt := rfl
@[simp] theorem deassertAll_armValue (s : State) : (deassertAll s).armValue = s.armValue := rfl
@[simp] theorem deassertAll_armEpoch (s : State) : (deassertAll s).armEpoch = s.armEpoch := rfl
@[simp] theorem deassertAll_tmrPend (s : State) : (deassertAll s).tmrPend = s.tmrPend := rfl
@[simp] theorem deassertAll_fireEpoch (s : State) : (deassertAll s).fireEpoch = s.fireEpoch := rfl
@[simp] theorem deassertAll_tfireCnt (s : State) : (deassertAll s).tfireCnt = s.tfireCnt := rfl
@[simp] theorem deassertAll_staleCnt (s : State) : (deassertAll s).staleCnt = s.staleCnt := rfl
@[simp] theorem deassertAll_gates (s : State) : (deassertAll s).gates = s.gates.map fun _ => false := rfl
@[simp] theorem deassertAll_latMax (s : State) : (deassertAll s).latMax = s.latMax := rfl
@[simp] theorem deassertAll_zcWait (s : State) : (deassertAll s).zcWait = s.zcWait := rfl
@[simp] theorem deassertAll_tmrWait (s : State) : (deassertAll s).tmrWait = s.tmrWait := rfl
@[simp] theorem deassertAll_resp (s : State) : (deassertAll s).resp = s.resp := rfl
@[simp] theorem deassertAll_inputs (s : State) : (deassertAll s).inputs = s.inputs := rfl

/-! `arm` -/

@[simp] theorem arm_chans (c m : U16) (s : State) : (arm c m s).chans = s.chans := rfl
@[simp] theorem arm_en (c m : U16) (s : State) : (arm c m s).en = s.en := rfl
@[simp] theorem arm_pol (c m : U16) (s : State) : (arm c m s).pol = s.pol := rfl
@[simp] theorem arm_pullup (c m : U16) (s : State) : (arm c m s).pullup = s.pullup := rfl
@[simp] theorem arm_fmonCont (c m : U16) (s : State) : (arm c m s).fmonCont = s.fmonCont := rfl
@[simp] theorem arm_minRetrig (c m : U16) (s : State) : (arm c m s).minRetrig = s.minRetrig := rfl
@[simp] theorem arm_fmode (c m : U16) (s : State) : (arm c m s).fmode = s.fmode := rfl
@[simp] theorem arm_fmonReq (c m : U16) (s : State) : (arm c m s).fmonReq = s.fmonReq := rfl
@[simp] theorem arm_semiMeas (c m : U16) (s : State) : (arm c m s).semiMeas = s.semiMeas := rfl
@[simp] theorem arm_semiValid (c m : U16) (s : State) : (arm c m s).semiValid = s.semiValid := rfl
@[simp] theorem arm_oorCnt (c m : U16) (s : State) : (arm c m s).oorCnt = s.oorCnt := rfl
@[simp] theorem arm_zcPrev (c m : U16) (s : State) : (arm c m s).zcPrev = s.zcPrev := rfl
@[simp] theorem arm_zcPend (c m : U16) (s : State) : (arm c m s).zcPend = s.zcPend := rfl
@[simp] theorem arm_zcCapt (c m : U16) (s : State) : (arm c m s).zcCapt = s.zcCapt := rfl
@[simp] theorem arm_zcState (c m : U16) (s : State) : (arm c m s).zcState = s.zcState := rfl
@[simp] theorem arm_tEdge (c m : U16) (s : State) : (arm c m s).tEdge = s.tEdge := rfl
@[simp] theorem arm_epoch (c m : U16) (s : State) : (arm c m s).epoch = s.epoch := rfl
@[simp] theorem arm_now (c m : U16) (s : State) : (arm c m s).now = s.now := rfl
@[simp] theorem arm_tmrArmed (c m : U16) (s : State) : (arm c m s).tmrArmed = true := rfl
@[simp] theorem arm_tmrCnt (c m : U16) (s : State) : (arm c m s).tmrCnt = c := rfl
@[simp] theorem arm_armValue (c m : U16) (s : State) : (arm c m s).armValue = m := rfl
@[simp] theorem arm_armEpoch (c m : U16) (s : State) : (arm c m s).armEpoch = s.epoch := rfl
@[simp] theorem arm_tmrPend (c m : U16) (s : State) : (arm c m s).tmrPend = s.tmrPend := rfl
@[simp] theorem arm_fireEpoch (c m : U16) (s : State) : (arm c m s).fireEpoch = s.fireEpoch := rfl
@[simp] theorem arm_tfireCnt (c m : U16) (s : State) : (arm c m s).tfireCnt = s.tfireCnt := rfl
@[simp] theorem arm_staleCnt (c m : U16) (s : State) : (arm c m s).staleCnt = s.staleCnt := rfl
@[simp] theorem arm_gates (c m : U16) (s : State) : (arm c m s).gates = s.gates := rfl
@[simp] theorem arm_latMax (c m : U16) (s : State) : (arm c m s).latMax = s.latMax := rfl
@[simp] theorem arm_zcWait (c m : U16) (s : State) : (arm c m s).zcWait = s.zcWait := rfl
@[simp] theorem arm_tmrWait (c m : U16) (s : State) : (arm c m s).tmrWait = s.tmrWait := rfl
@[simp] theorem arm_resp (c m : U16) (s : State) : (arm c m s).resp = s.resp := rfl
@[simp] theorem arm_inputs (c m : U16) (s : State) : (arm c m s).inputs = s.inputs := rfl

/-! `cancel` -/

@[simp] theorem cancel_chans (s : State) : (cancel s).chans = s.chans := rfl
@[simp] theorem cancel_en (s : State) : (cancel s).en = s.en := rfl
@[simp] theorem cancel_pol (s : State) : (cancel s).pol = s.pol := rfl
@[simp] theorem cancel_pullup (s : State) : (cancel s).pullup = s.pullup := rfl
@[simp] theorem cancel_fmonCont (s : State) : (cancel s).fmonCont = s.fmonCont := rfl
@[simp] theorem cancel_minRetrig (s : State) : (cancel s).minRetrig = s.minRetrig := rfl
@[simp] theorem cancel_fmode (s : State) : (cancel s).fmode = s.fmode := rfl
@[simp] theorem cancel_fmonReq (s : State) : (cancel s).fmonReq = s.fmonReq := rfl
@[simp] theorem cancel_semiMeas (s : State) : (cancel s).semiMeas = s.semiMeas := rfl
@[simp] theorem cancel_semiValid (s : State) : (cancel s).semiValid = s.semiValid := rfl
@[simp] theorem cancel_oorCnt (s : State) : (cancel s).oorCnt = s.oorCnt := rfl
@[simp] theorem cancel_zcPrev (s : State) : (cancel s).zcPrev = s.zcPrev := rfl
@[simp] theorem cancel_zcPend (s : State) : (cancel s).zcPend = s.zcPend := rfl
@[simp] theorem cancel_zcCapt (s : State) : (cancel s).zcCapt = s.zcCapt := rfl
@[simp] theorem cancel_zcState (s : State) : (cancel s).zcState = s.zcState := rfl
@[simp] theorem cancel_tEdge (s : State) : (cancel s).tEdge = s.tEdge := rfl
@[simp] theorem cancel_epoch (s : State) : (cancel s).epoch = s.epoch := rfl
@[simp] theorem cancel_now (s : State) : (cancel s).now = s.now := rfl
@[simp] theorem cancel_tmrArmed (s : State) : (cancel s).tmrArmed = false := rfl
@[simp] theorem cancel_tmrCnt (s : State) : (cancel s).tmrCnt = 0#16 := rfl
@[simp] theorem cancel_armValue (s : State) : (cancel s).armValue = s.armValue := rfl
@[simp] theorem cancel_armEpoch (s : State) : (cancel s).armEpoch = s.armEpoch := rfl
@[simp] theorem cancel_tmrPend (s : State) : (cancel s).tmrPend = s.tmrPend := rfl
@[simp] theorem cancel_fireEpoch (s : State) : (cancel s).fireEpoch = s.fireEpoch := rfl
@[simp] theorem cancel_tfireCnt (s : State) : (cancel s).tfireCnt = s.tfireCnt := rfl
@[simp] theorem cancel_staleCnt (s : State) : (cancel s).staleCnt = s.staleCnt := rfl
@[simp] theorem cancel_gates (s : State) : (cancel s).gates = s.gates := rfl
@[simp] theorem cancel_latMax (s : State) : (cancel s).latMax = s.latMax := rfl
@[simp] theorem cancel_zcWait (s : State) : (cancel s).zcWait = s.zcWait := rfl
@[simp] theorem cancel_tmrWait (s : State) : (cancel s).tmrWait = s.tmrWait := rfl
@[simp] theorem cancel_resp (s : State) : (cancel s).resp = s.resp := rfl
@[simp] theorem cancel_inputs (s : State) : (cancel s).inputs = s.inputs := rfl

/-! `expire` -/

@[simp] theorem expire_chans (s : State) : (expire s).chans = s.chans := rfl
@[simp] theorem expire_en (s : State) : (expire s).en = s.en := rfl
@[simp] theorem expire_pol (s : State) : (expire s).pol = s.pol := rfl
@[simp] theorem expire_pullup (s : State) : (expire s).pullup = s.pullup := rfl
@[simp] theorem expire_fmonCont (s : State) : (expire s).fmonCont = s.fmonCont := rfl
@[simp] theorem expire_minRetrig (s : State) : (expire s).minRetrig = s.minRetrig := rfl
@[simp] theorem expire_fmode (s : State) : (expire s).fmode = s.fmode := rfl
@[simp] theorem expire_fmonReq (s : State) : (expire s).fmonReq = s.fmonReq := rfl
@[simp] theorem expire_semiMeas (s : State) : (expire s).semiMeas = s.semiMeas := rfl
@[simp] theorem expire_semiValid (s : State) : (expire s).semiValid = s.semiValid := rfl
@[simp] theorem expire_oorCnt (s : State) : (expire s).oorCnt = s.oorCnt := rfl
@[simp] theorem expire_zcPrev (s : State) : (expire s).zcPrev = s.zcPrev := rfl
@[simp] theorem expire_zcPend (s : State) : (expire s).zcPend = s.zcPend := rfl
@[simp] theorem expire_zcCapt (s : State) : (expire s).zcCapt = s.zcCapt := rfl
@[simp] theorem expire_zcState (s : State) : (expire s).zcState = s.zcState := rfl
@[simp] theorem expire_tEdge (s : State) : (expire s).tEdge = s.tEdge := rfl
@[simp] theorem expire_epoch (s : State) : (expire s).epoch = s.epoch := rfl
@[simp] theorem expire_now (s : State) : (expire s).now = s.now := rfl
@[simp] theorem expire_tmrArmed (s : State) : (expire s).tmrArmed = false := rfl
@[simp] theorem expire_tmrCnt (s : State) : (expire s).tmrCnt = s.tmrCnt := rfl
@[simp] theorem expire_armValue (s : State) : (expire s).armValue = s.armValue := rfl
@[simp] theorem expire_armEpoch (s : State) : (expire s).armEpoch = s.armEpoch := rfl
@[simp] theorem expire_tmrPend (s : State) : (expire s).tmrPend = true := rfl
@[simp] theorem expire_fireEpoch (s : State) : (expire s).fireEpoch = s.armEpoch := rfl
@[simp] theorem expire_tfireCnt (s : State) : (expire s).tfireCnt = s.tfireCnt := rfl
@[simp] theorem expire_staleCnt (s : State) :
    (expire s).staleCnt = if s.tmrPend then s.staleCnt + 1#32 else s.staleCnt := rfl
@[simp] theorem expire_gates (s : State) : (expire s).gates = s.gates := rfl
@[simp] theorem expire_latMax (s : State) : (expire s).latMax = s.latMax := rfl
@[simp] theorem expire_zcWait (s : State) : (expire s).zcWait = s.zcWait := rfl
@[simp] theorem expire_tmrWait (s : State) : (expire s).tmrWait = s.tmrWait := rfl
@[simp] theorem expire_resp (s : State) : (expire s).resp = s.resp := rfl
@[simp] theorem expire_inputs (s : State) : (expire s).inputs = s.inputs := rfl

/-! `enterZc` -/

@[simp] theorem enterZc_chans (s : State) : (enterZc s).chans = s.chans := rfl
@[simp] theorem enterZc_en (s : State) : (enterZc s).en = s.en := rfl
@[simp] theorem enterZc_pol (s : State) : (enterZc s).pol = s.pol := rfl
@[simp] theorem enterZc_pullup (s : State) : (enterZc s).pullup = s.pullup := rfl
@[simp] theorem enterZc_fmonCont (s : State) : (enterZc s).fmonCont = s.fmonCont := rfl
@[simp] theorem enterZc_minRetrig (s : State) : (enterZc s).minRetrig = s.minRetrig := rfl
@[simp] theorem enterZc_fmode (s : State) : (enterZc s).fmode = s.fmode := rfl
@[simp] theorem enterZc_fmonReq (s : State) : (enterZc s).fmonReq = s.fmonReq := rfl
@[simp] theorem enterZc_semiMeas (s : State) : (enterZc s).semiMeas = s.semiMeas := rfl
@[simp] theorem enterZc_semiValid (s : State) : (enterZc s).semiValid = s.semiValid := rfl
@[simp] theorem enterZc_oorCnt (s : State) : (enterZc s).oorCnt = s.oorCnt := rfl
@[simp] theorem enterZc_zcPrev (s : State) : (enterZc s).zcPrev = s.zcPrev := rfl
@[simp] theorem enterZc_zcPend (s : State) : (enterZc s).zcPend = false := rfl
@[simp] theorem enterZc_zcCapt (s : State) : (enterZc s).zcCapt = s.zcCapt := rfl
@[simp] theorem enterZc_zcState (s : State) : (enterZc s).zcState = s.zcState := rfl
@[simp] theorem enterZc_tEdge (s : State) : (enterZc s).tEdge = s.tEdge := rfl
@[simp] theorem enterZc_epoch (s : State) : (enterZc s).epoch = s.epoch := rfl
@[simp] theorem enterZc_now (s : State) : (enterZc s).now = s.now := rfl
@[simp] theorem enterZc_tmrArmed (s : State) : (enterZc s).tmrArmed = s.tmrArmed := rfl
@[simp] theorem enterZc_tmrCnt (s : State) : (enterZc s).tmrCnt = s.tmrCnt := rfl
@[simp] theorem enterZc_armValue (s : State) : (enterZc s).armValue = s.armValue := rfl
@[simp] theorem enterZc_armEpoch (s : State) : (enterZc s).armEpoch = s.armEpoch := rfl
@[simp] theorem enterZc_tmrPend (s : State) : (enterZc s).tmrPend = s.tmrPend := rfl
@[simp] theorem enterZc_fireEpoch (s : State) : (enterZc s).fireEpoch = s.fireEpoch := rfl
@[simp] theorem enterZc_tfireCnt (s : State) : (enterZc s).tfireCnt = s.tfireCnt := rfl
@[simp] theorem enterZc_staleCnt (s : State) : (enterZc s).staleCnt = s.staleCnt := rfl
@[simp] theorem enterZc_gates (s : State) : (enterZc s).gates = s.gates := rfl
@[simp] theorem enterZc_latMax (s : State) : (enterZc s).latMax = s.latMax := rfl
@[simp] theorem enterZc_zcWait (s : State) : (enterZc s).zcWait = 0 := rfl
@[simp] theorem enterZc_tmrWait (s : State) : (enterZc s).tmrWait = s.tmrWait := rfl
@[simp] theorem enterZc_resp (s : State) : (enterZc s).resp = s.resp := rfl
@[simp] theorem enterZc_inputs (s : State) : (enterZc s).inputs = s.inputs := rfl

/-! `enterTmr` -/

@[simp] theorem enterTmr_chans (s : State) : (enterTmr s).chans = s.chans := rfl
@[simp] theorem enterTmr_en (s : State) : (enterTmr s).en = s.en := rfl
@[simp] theorem enterTmr_pol (s : State) : (enterTmr s).pol = s.pol := rfl
@[simp] theorem enterTmr_pullup (s : State) : (enterTmr s).pullup = s.pullup := rfl
@[simp] theorem enterTmr_fmonCont (s : State) : (enterTmr s).fmonCont = s.fmonCont := rfl
@[simp] theorem enterTmr_minRetrig (s : State) : (enterTmr s).minRetrig = s.minRetrig := rfl
@[simp] theorem enterTmr_fmode (s : State) : (enterTmr s).fmode = s.fmode := rfl
@[simp] theorem enterTmr_fmonReq (s : State) : (enterTmr s).fmonReq = s.fmonReq := rfl
@[simp] theorem enterTmr_semiMeas (s : State) : (enterTmr s).semiMeas = s.semiMeas := rfl
@[simp] theorem enterTmr_semiValid (s : State) : (enterTmr s).semiValid = s.semiValid := rfl
@[simp] theorem enterTmr_oorCnt (s : State) : (enterTmr s).oorCnt = s.oorCnt := rfl
@[simp] theorem enterTmr_zcPrev (s : State) : (enterTmr s).zcPrev = s.zcPrev := rfl
@[simp] theorem enterTmr_zcPend (s : State) : (enterTmr s).zcPend = s.zcPend := rfl
@[simp] theorem enterTmr_zcCapt (s : State) : (enterTmr s).zcCapt = s.zcCapt := rfl
@[simp] theorem enterTmr_zcState (s : State) : (enterTmr s).zcState = s.zcState := rfl
@[simp] theorem enterTmr_tEdge (s : State) : (enterTmr s).tEdge = s.tEdge := rfl
@[simp] theorem enterTmr_epoch (s : State) : (enterTmr s).epoch = s.epoch := rfl
@[simp] theorem enterTmr_now (s : State) : (enterTmr s).now = s.now := rfl
@[simp] theorem enterTmr_tmrArmed (s : State) : (enterTmr s).tmrArmed = s.tmrArmed := rfl
@[simp] theorem enterTmr_tmrCnt (s : State) : (enterTmr s).tmrCnt = s.tmrCnt := rfl
@[simp] theorem enterTmr_armValue (s : State) : (enterTmr s).armValue = s.armValue := rfl
@[simp] theorem enterTmr_armEpoch (s : State) : (enterTmr s).armEpoch = s.armEpoch := rfl
@[simp] theorem enterTmr_tmrPend (s : State) : (enterTmr s).tmrPend = false := rfl
@[simp] theorem enterTmr_fireEpoch (s : State) : (enterTmr s).fireEpoch = s.fireEpoch := rfl
@[simp] theorem enterTmr_tfireCnt (s : State) : (enterTmr s).tfireCnt = s.tfireCnt := rfl
@[simp] theorem enterTmr_staleCnt (s : State) : (enterTmr s).staleCnt = s.staleCnt := rfl
@[simp] theorem enterTmr_gates (s : State) : (enterTmr s).gates = s.gates := rfl
@[simp] theorem enterTmr_latMax (s : State) : (enterTmr s).latMax = s.latMax := rfl
@[simp] theorem enterTmr_zcWait (s : State) : (enterTmr s).zcWait = s.zcWait := rfl
@[simp] theorem enterTmr_tmrWait (s : State) : (enterTmr s).tmrWait = 0 := rfl
@[simp] theorem enterTmr_resp (s : State) : (enterTmr s).resp = s.resp := rfl
@[simp] theorem enterTmr_inputs (s : State) : (enterTmr s).inputs = s.inputs := rfl

/-! `latchEdge` -/

@[simp] theorem latchEdge_chans (s : State) : (latchEdge s).chans = s.chans := rfl
@[simp] theorem latchEdge_en (s : State) : (latchEdge s).en = s.en := rfl
@[simp] theorem latchEdge_pol (s : State) : (latchEdge s).pol = s.pol := rfl
@[simp] theorem latchEdge_pullup (s : State) : (latchEdge s).pullup = s.pullup := rfl
@[simp] theorem latchEdge_fmonCont (s : State) : (latchEdge s).fmonCont = s.fmonCont := rfl
@[simp] theorem latchEdge_minRetrig (s : State) : (latchEdge s).minRetrig = s.minRetrig := rfl
@[simp] theorem latchEdge_fmode (s : State) : (latchEdge s).fmode = s.fmode := rfl
@[simp] theorem latchEdge_fmonReq (s : State) : (latchEdge s).fmonReq = s.fmonReq := rfl
@[simp] theorem latchEdge_semiMeas (s : State) : (latchEdge s).semiMeas = s.semiMeas := rfl
@[simp] theorem latchEdge_semiValid (s : State) : (latchEdge s).semiValid = s.semiValid := rfl
@[simp] theorem latchEdge_oorCnt (s : State) : (latchEdge s).oorCnt = s.oorCnt := rfl
@[simp] theorem latchEdge_zcPrev (s : State) : (latchEdge s).zcPrev = s.zcPrev := rfl
@[simp] theorem latchEdge_zcPend (s : State) : (latchEdge s).zcPend = true := rfl
@[simp] theorem latchEdge_zcCapt (s : State) : (latchEdge s).zcCapt = s.now := rfl
@[simp] theorem latchEdge_zcState (s : State) : (latchEdge s).zcState = s.zcState := rfl
@[simp] theorem latchEdge_tEdge (s : State) : (latchEdge s).tEdge = s.tEdge := rfl
@[simp] theorem latchEdge_epoch (s : State) : (latchEdge s).epoch = s.epoch := rfl
@[simp] theorem latchEdge_now (s : State) : (latchEdge s).now = s.now := rfl
@[simp] theorem latchEdge_tmrArmed (s : State) : (latchEdge s).tmrArmed = s.tmrArmed := rfl
@[simp] theorem latchEdge_tmrCnt (s : State) : (latchEdge s).tmrCnt = s.tmrCnt := rfl
@[simp] theorem latchEdge_armValue (s : State) : (latchEdge s).armValue = s.armValue := rfl
@[simp] theorem latchEdge_armEpoch (s : State) : (latchEdge s).armEpoch = s.armEpoch := rfl
@[simp] theorem latchEdge_tmrPend (s : State) : (latchEdge s).tmrPend = s.tmrPend := rfl
@[simp] theorem latchEdge_fireEpoch (s : State) : (latchEdge s).fireEpoch = s.fireEpoch := rfl
@[simp] theorem latchEdge_tfireCnt (s : State) : (latchEdge s).tfireCnt = s.tfireCnt := rfl
@[simp] theorem latchEdge_staleCnt (s : State) : (latchEdge s).staleCnt = s.staleCnt := rfl
@[simp] theorem latchEdge_gates (s : State) : (latchEdge s).gates = s.gates := rfl
@[simp] theorem latchEdge_latMax (s : State) : (latchEdge s).latMax = s.latMax := rfl
@[simp] theorem latchEdge_zcWait (s : State) : (latchEdge s).zcWait = if s.zcPend then s.zcWait else 0 := rfl
@[simp] theorem latchEdge_tmrWait (s : State) : (latchEdge s).tmrWait = s.tmrWait := rfl
@[simp] theorem latchEdge_resp (s : State) : (latchEdge s).resp = s.resp := rfl
@[simp] theorem latchEdge_inputs (s : State) : (latchEdge s).inputs = s.inputs := rfl

/-! `advanceTime` -/

@[simp] theorem advanceTime_chans (s : State) : (advanceTime s).chans = s.chans := rfl
@[simp] theorem advanceTime_en (s : State) : (advanceTime s).en = s.en := rfl
@[simp] theorem advanceTime_pol (s : State) : (advanceTime s).pol = s.pol := rfl
@[simp] theorem advanceTime_pullup (s : State) : (advanceTime s).pullup = s.pullup := rfl
@[simp] theorem advanceTime_fmonCont (s : State) : (advanceTime s).fmonCont = s.fmonCont := rfl
@[simp] theorem advanceTime_minRetrig (s : State) : (advanceTime s).minRetrig = s.minRetrig := rfl
@[simp] theorem advanceTime_fmode (s : State) : (advanceTime s).fmode = s.fmode := rfl
@[simp] theorem advanceTime_fmonReq (s : State) : (advanceTime s).fmonReq = s.fmonReq := rfl
@[simp] theorem advanceTime_semiMeas (s : State) : (advanceTime s).semiMeas = s.semiMeas := rfl
@[simp] theorem advanceTime_semiValid (s : State) : (advanceTime s).semiValid = s.semiValid := rfl
@[simp] theorem advanceTime_oorCnt (s : State) : (advanceTime s).oorCnt = s.oorCnt := rfl
@[simp] theorem advanceTime_zcPrev (s : State) : (advanceTime s).zcPrev = s.zcPrev := rfl
@[simp] theorem advanceTime_zcPend (s : State) : (advanceTime s).zcPend = s.zcPend := rfl
@[simp] theorem advanceTime_zcCapt (s : State) : (advanceTime s).zcCapt = s.zcCapt := rfl
@[simp] theorem advanceTime_zcState (s : State) : (advanceTime s).zcState = s.zcState := rfl
@[simp] theorem advanceTime_tEdge (s : State) : (advanceTime s).tEdge = s.tEdge := rfl
@[simp] theorem advanceTime_epoch (s : State) : (advanceTime s).epoch = s.epoch := rfl
@[simp] theorem advanceTime_now (s : State) : (advanceTime s).now = s.now + 1#32 := rfl
@[simp] theorem advanceTime_tmrArmed (s : State) : (advanceTime s).tmrArmed = s.tmrArmed := rfl
@[simp] theorem advanceTime_tmrCnt (s : State) : (advanceTime s).tmrCnt = s.tmrCnt := rfl
@[simp] theorem advanceTime_armValue (s : State) : (advanceTime s).armValue = s.armValue := rfl
@[simp] theorem advanceTime_armEpoch (s : State) : (advanceTime s).armEpoch = s.armEpoch := rfl
@[simp] theorem advanceTime_tmrPend (s : State) : (advanceTime s).tmrPend = s.tmrPend := rfl
@[simp] theorem advanceTime_fireEpoch (s : State) : (advanceTime s).fireEpoch = s.fireEpoch := rfl
@[simp] theorem advanceTime_tfireCnt (s : State) : (advanceTime s).tfireCnt = s.tfireCnt := rfl
@[simp] theorem advanceTime_staleCnt (s : State) : (advanceTime s).staleCnt = s.staleCnt := rfl
@[simp] theorem advanceTime_gates (s : State) : (advanceTime s).gates = s.gates := rfl
@[simp] theorem advanceTime_latMax (s : State) : (advanceTime s).latMax = s.latMax := rfl
@[simp] theorem advanceTime_zcWait (s : State) : (advanceTime s).zcWait = if s.zcPend then s.zcWait + 1 else 0 := rfl
@[simp] theorem advanceTime_tmrWait (s : State) :
    (advanceTime s).tmrWait = if s.tmrPend then s.tmrWait + 1 else 0 := rfl
@[simp] theorem advanceTime_resp (s : State) : (advanceTime s).resp = s.resp := rfl
@[simp] theorem advanceTime_inputs (s : State) : (advanceTime s).inputs = s.inputs := rfl

end Sys2Proof.Machine
end

