-- ==== Sys2Proof/Laws/Ops.lean ====
section
/-! SUPPORT. What the shared operations over slots and delays can answer. -/
namespace Sys2Proof.Machine

/-- A response writes the response port and nothing else. -/
theorem respond_eq (st : Status) (d : U32) (s : State) : respond st d s = { s with resp := some ⟨st, d⟩ } := rfl

theorem fail_eq (st : Status) (s : State) : fail st s = { s with resp := some ⟨st, 0#32⟩ } := rfl

theorem activeSlot_eq_some (id : U8) (s : State) (c : Slot) :
    activeSlot id s = some c ↔ s.chans[id.toNat]? = some c ∧ c.active = true := by
  simp [activeSlot, slotAt, Option.filter_eq_some_iff]

theorem activeSlot_eq_none (id : U8) (s : State) :
    activeSlot id s = none ↔ ∀ c, s.chans[id.toNat]? = some c → c.active = false := by
  simp [activeSlot, slotAt, Option.filter_eq_none_iff]

theorem lowestFree_eq_none (l : List Slot) : lowestFree l = none ↔ ∀ c ∈ l, c.active = true := by
  induction l with
  | nil => simp [lowestFree]
  | cons c cs ih => by_cases h : c.active = true <;> simp [lowestFree, h, ih]

theorem lowestFree_eq_some (l : List Slot) (i : Nat) :
    lowestFree l = some i ↔
      (∃ c, l[i]? = some c ∧ c.active = false) ∧ ∀ j c, j < i → l[j]? = some c → c.active = true := by
  induction l generalizing i with
  | nil => simp [lowestFree]
  | cons c cs ih =>
    by_cases h : c.active = true
    · cases i with
      | zero => simp [lowestFree, h]
      | succ i =>
        simp only [lowestFree, h, if_true, Option.map_eq_some_iff, Nat.add_right_cancel_iff, exists_eq_right, ih,
          List.getElem?_cons_succ]
        refine and_congr_right fun _ => ⟨fun H j d hj hd => ?_, fun H j d hj hd => H (j + 1) d (by omega) hd⟩
        cases j with
        | zero => simp_all
        | succ j => exact H j d (by omega) hd
    · have hf : c.active = false := by simpa using h
      simp only [lowestFree, hf, Bool.false_eq_true, if_false, Option.some.injEq]
      constructor
      · rintro rfl; exact ⟨⟨c, rfl, hf⟩, fun j _ hj => absurd hj (Nat.not_lt_zero j)⟩
      · rintro ⟨-, H⟩
        by_contra hi
        exact h (H 0 c (by omega) rfl)

theorem leastDelay_eq_none (l : List U16) : leastDelay l = none ↔ l = [] := by
  cases l with
  | nil => simp [leastDelay]
  | cons d ds =>
    simp only [leastDelay, reduceCtorEq, iff_false]
    split
    · simp
    · split <;> simp

theorem leastDelay_eq_some (l : List U16) (m : U16) : leastDelay l = some m ↔ m ∈ l ∧ ∀ d ∈ l, m ≤ d := by
  induction l generalizing m with
  | nil => simp [leastDelay]
  | cons d ds ih =>
    simp only [leastDelay]
    cases h : leastDelay ds with
    | none =>
      rw [leastDelay_eq_none] at h
      subst h
      simp [eq_comm]
      rintro rfl; exact BitVec.le_refl _
    | some k =>
      obtain ⟨hk, hmin⟩ := (ih k).1 h
      by_cases hd : d ≤ k
      · simp only [hd, if_true, Option.some.injEq, List.mem_cons, forall_eq_or_imp]
        constructor
        · rintro rfl
          exact ⟨.inl rfl, BitVec.le_refl _, fun e he => BitVec.le_trans hd (hmin e he)⟩
        · rintro ⟨hm | hm, h1, h2⟩
          · exact hm.symm
          · exact BitVec.le_antisymm (BitVec.le_trans hd (hmin m hm)) h1
      · simp only [hd, if_false, Option.some.injEq, List.mem_cons, forall_eq_or_imp]
        have hkd : k ≤ d := by bv_omega
        constructor
        · rintro rfl; exact ⟨.inr hk, hkd, hmin⟩
        · rintro ⟨hm | hm, h1, h2⟩
          · subst hm; exact absurd (h2 k hk) hd
          · exact BitVec.le_antisymm (hmin m hm) (h2 k hk)

theorem leastEligible_eq_none (s : State) :
    leastEligible s = none ↔ ∀ c ∈ s.chans, eligible (semi s) c = false := by
  simp [leastEligible, leastDelay_eq_none]

theorem leastEligible_eq_some (s : State) (m : U16) :
    leastEligible s = some m ↔
      (∃ c ∈ s.chans, eligible (semi s) c = true ∧ c.delay = m) ∧
        ∀ c ∈ s.chans, eligible (semi s) c = true → m ≤ c.delay := by
  rw [leastEligible, leastDelay_eq_some]
  simp only [List.mem_map, List.mem_filter, and_assoc]
  exact and_congr_right fun _ => ⟨fun h c hc he => h _ ⟨c, hc, he, rfl⟩, fun h d ⟨c, hc, he, hd⟩ => hd ▸ h c hc he⟩

theorem eligible_iff (sp : U16) (c : Slot) :
    eligible sp c = true ↔ c.active = true ∧ c.fired = false ∧ c.delay ≠ 0xFFFF#16 ∧ c.delay < sp := by
  simp [eligible, never, and_assoc]

/-- A bit of a CTRL value as arithmetic (44_config_regs.md R190). -/
theorem getLsbD_eq_div (v : U16) (k : Nat) : v.getLsbD k = decide (v.toNat / 2 ^ k % 2 = 1) := by
  rw [BitVec.getLsbD, Nat.testBit_eq_decide_div_mod_eq]

theorem polarityOf_eq_none (code : U2) : polarityOf code = none ↔ code.toNat = 3 := by
  revert code; decide

/-- The CTRL values that are refused (44_config_regs.md R191). -/
theorem ctrlPol_eq_none (v : U16) : ctrlPol v = none ↔ 32 ≤ v.toNat ∨ v.toNat / 2 % 4 = 3 := by
  have hi : v.extractLsb' 5 11 = 0#11 ↔ v.toNat < 32 := by
    have := v.isLt
    rw [← BitVec.toNat_inj, BitVec.extractLsb'_toNat, Nat.shiftRight_eq_div_pow]
    constructor <;> intro h <;> simp at * <;> omega
  have mid : (v.extractLsb' 1 2).toNat = v.toNat / 2 % 4 := by
    rw [BitVec.extractLsb'_toNat, Nat.shiftRight_eq_div_pow]
  unfold ctrlPol
  split
  · rename_i h; rw [hi] at h; rw [polarityOf_eq_none, mid]; omega
  · rename_i h; rw [hi] at h; simp; omega

/-- FreqSample writes nothing but the estimate, the request and its counter. -/
theorem freqSample_frame (x : U32) (s : State) :
    freqSample x s = { s with
      semiMeas := (freqSample x s).semiMeas, semiValid := (freqSample x s).semiValid
      fmonReq := (freqSample x s).fmonReq, oorCnt := (freqSample x s).oorCnt } := by
  unfold freqSample; split <;> rfl

/-- The whole effect of a quiesce (44_config_regs.md R192). -/
theorem quiesce_eq (s : State) :
    quiesce s = { s with
      tmrArmed := false, tmrCnt := 0#16, tmrPend := false, tmrWait := 0, zcPend := false, zcWait := 0
      gates := s.gates.map fun _ => false, chans := s.chans.map fun c => { c with fired := false }
      zcState := .idle } := by
  simp only [quiesce, clearFired, deassertAll, enterZc, enterTmr, cancel]

/-- Writing one slot leaves what is not written of it alone. -/
theorem map_set_of_eq {β : Type} (f : Slot → β) (l : List Slot) (i : Nat) (c d : Slot) (h : l[i]? = some c) (hf : f d = f c) :
    (l.set i d).map f = l.map f := by
  apply List.ext_getElem?
  intro j
  simp only [List.getElem?_map, List.getElem?_set]
  split
  · rename_i hj
    subst hj
    split
    · simp [h, hf]
    · rename_i hh; simp at hh; simp [hh]
  · rfl

/-- ZCIN writes nothing but the edge detector and its request. -/
theorem zcin_frame (v : Bool) (s : State) :
    zcin v s = { s with
      zcPrev := v, zcCapt := (zcin v s).zcCapt, zcPend := (zcin v s).zcPend, zcWait := (zcin v s).zcWait } := by
  unfold zcin
  split
  · rename_i h; subst h; rfl
  · split <;> rfl

/-- TICK writes nothing but the time, the timer and its request, STALE_CNT and the wait counts. -/
theorem tick_frame (s : State) :
    tick s = { s with
      now := s.now + 1#32, tmrArmed := (tick s).tmrArmed, tmrCnt := (tick s).tmrCnt, tmrPend := (tick s).tmrPend
      fireEpoch := (tick s).fireEpoch, staleCnt := (tick s).staleCnt
      zcWait := (tick s).zcWait, tmrWait := (tick s).tmrWait } := by
  unfold tick countDown
  split
  · simp only; split <;> rfl
  · rfl

end Sys2Proof.Machine
end

