-- ==== Sys2Proof/Laws/PerInstr.lean ====
section
/-! SUPPORT. What holds of every instruction as syntax, one lemma per constructor. -/
namespace Sys2Proof.Laws

/-- An instruction has a command word exactly if it is a host command (30_encoding.md R82, R92). -/
def HasCommandWord.Statement (i : Instr) : Prop := (encodeCommand i).isSome = i.isCommand

theorem HasCommandWord.nop : HasCommandWord.Statement .nop := rfl
theorem HasCommandWord.register (pin : U8) : HasCommandWord.Statement (.register pin) := rfl
theorem HasCommandWord.release (id : U8) : HasCommandWord.Statement (.release id) := rfl
theorem HasCommandWord.setdelay (id : U8) (delay : U16) : HasCommandWord.Statement (.setdelay id delay) := rfl
theorem HasCommandWord.getdelay (id : U8) : HasCommandWord.Statement (.getdelay id) := rfl
theorem HasCommandWord.getsemi : HasCommandWord.Statement .getsemi := rfl
theorem HasCommandWord.getfreq : HasCommandWord.Statement .getfreq := rfl
theorem HasCommandWord.setfmode (mode : U2) : HasCommandWord.Statement (.setfmode mode) := rfl
theorem HasCommandWord.wreg (index : U8) (value : U16) : HasCommandWord.Statement (.wreg index value) := rfl
theorem HasCommandWord.rreg (index : U8) : HasCommandWord.Statement (.rreg index) := rfl
theorem HasCommandWord.measure : HasCommandWord.Statement .measure := rfl
theorem HasCommandWord.getchan (id : U8) : HasCommandWord.Statement (.getchan id) := rfl
theorem HasCommandWord.svcZc : HasCommandWord.Statement .svcZc := rfl
theorem HasCommandWord.svcTmr : HasCommandWord.Statement .svcTmr := rfl

end Sys2Proof.Laws
end

