-- ==== Sys2Proof/Laws/Scheduler.lean ====
section
/-! SUPPORT. The scheduler in closed form: what Fire does, and that the loop of Schedule fires all slots that are due
and then cancels or arms, whatever the number of passes. -/
namespace Sys2Proof.Machine

/-- Assert the lines of all slots that `q` selects and mark them fired. -/
def fireAll (q : Slot → Bool) (s : State) : State :=
  { s with
    chans := s.chans.map fun c => if q c then { c with fired := true } else c
    gates := (s.chans.filter q).foldl (fun g c => g.set c.pin.toNat true) s.gates }

theorem foldl_assertGate (cs : List Slot) (s : State) :
    cs.foldl (fun t c => assertGate c.pin t) s =
      { s with gates := cs.foldl (fun g c => g.set c.pin.toNat true) s.gates } := by
  induction cs generalizing s with
  | nil => rfl
  | cons c cs ih => rw [List.foldl_cons, ih]; rfl

theorem fire_eq_fireAll (v : U16) (s : State) : fire v s = fireAll (fires (semi s) v) s := by
  simp only [fire, foldl_assertGate, fireAll]

theorem length_foldl_set (cs : List Slot) (g : List Bool) :
    (cs.foldl (fun g c => g.set c.pin.toNat true) g).length = g.length := by
  induction cs generalizing g with
  | nil => rfl
  | cons c cs ih => rw [List.foldl_cons, ih, List.length_set]

theorem getElem?_foldl_set (cs : List Slot) (g : List Bool) (p : Nat) (hp : p < g.length) :
    (cs.foldl (fun g c => g.set c.pin.toNat true) g)[p]? = some true ↔
      g[p]? = some true ∨ ∃ c ∈ cs, c.pin.toNat = p := by
  induction cs generalizing g with
  | nil => simp
  | cons c cs ih =>
    rw [List.foldl_cons, ih _ (by simpa using hp)]
    by_cases h : c.pin.toNat = p
    · subst h; simp [hp]
    · simp [h]

theorem fireAll_gates_length (q : Slot → Bool) (s : State) : (fireAll q s).gates.length = s.gates.length :=
  length_foldl_set _ _

theorem fireAll_gates (q : Slot → Bool) (s : State) (p : Nat) (hp : p < s.gates.length) :
    (fireAll q s).gates[p]? = some true ↔
      s.gates[p]? = some true ∨ ∃ c ∈ s.chans, q c = true ∧ c.pin.toNat = p := by
  simp only [fireAll, getElem?_foldl_set _ _ _ hp, List.mem_filter, and_assoc]

theorem fireAll_none (q : Slot → Bool) (s : State) (h : ∀ c ∈ s.chans, q c = false) : fireAll q s = s := by
  have h1 : s.chans.map (fun c => if q c then { c with fired := true } else c) = s.chans :=
    (List.map_congr_left (fun c hc => by simp [h c hc])).trans (List.map_id _)
  have h2 : s.chans.filter q = [] := List.filter_eq_nil_iff.2 fun c hc => by simp [h c hc]
  simp only [fireAll, h1, h2, List.foldl_nil]

theorem bool_list_ext {g h : List Bool} (hl : g.length = h.length)
    (hp : ∀ p < g.length, (g[p]? = some true ↔ h[p]? = some true)) : g = h := by
  apply List.ext_getElem hl
  intro p h1 h2
  have := hp p h1
  rw [List.getElem?_eq_getElem h1, List.getElem?_eq_getElem h2, Option.some_inj, Option.some_inj] at this
  exact Bool.eq_iff_iff.2 this

/-- Firing first a part of the selected slots changes nothing, if a fired slot is not selected again. -/
theorem fireAll_fireAll (q r : Slot → Bool) (s : State) (hr : ∀ c, r c = true → q c = true)
    (hq : ∀ c : Slot, q { c with fired := true } = false) : fireAll q (fireAll r s) = fireAll q s := by
  have hc : (fireAll q (fireAll r s)).chans = (fireAll q s).chans := by
    simp only [fireAll, List.map_map]
    refine List.map_congr_left fun c _ => ?_
    by_cases h : r c = true <;> simp [h, hq, hr c]
  have hg : (fireAll q (fireAll r s)).gates = (fireAll q s).gates := by
    refine bool_list_ext (by simp only [fireAll_gates_length]) fun p hp => ?_
    rw [fireAll_gates_length, fireAll_gates_length] at hp
    rw [fireAll_gates _ _ _ (by rwa [fireAll_gates_length]), fireAll_gates _ _ _ hp, fireAll_gates _ _ _ hp]
    constructor
    · rintro ((h | ⟨c, hc, h1, h2⟩) | ⟨c, hc, h1, h2⟩)
      · exact .inl h
      · exact .inr ⟨c, hc, hr c h1, h2⟩
      · simp only [fireAll, List.mem_map] at hc
        obtain ⟨d, hd, rfl⟩ := hc
        by_cases h : r d = true
        · simp [h, hq] at h1
        · simp only [h] at h1 h2; exact .inr ⟨d, hd, h1, h2⟩
    · rintro (h | ⟨c, hc, h1, h2⟩)
      · exact .inl (.inl h)
      · by_cases h : r c = true
        · exact .inl (.inr ⟨c, hc, h, h2⟩)
        · refine .inr ⟨c, ?_, h1, h2⟩
          simp only [fireAll, List.mem_map]
          exact ⟨c, hc, by simp [h]⟩
  calc fireAll q (fireAll r s)
      = { s with chans := (fireAll q (fireAll r s)).chans, gates := (fireAll q (fireAll r s)).gates } := rfl
    _ = { s with chans := (fireAll q s).chans, gates := (fireAll q s).gates } := by rw [hc, hg]
    _ = fireAll q s := rfl

/-- The slots that are due: eligible, with a delay that has elapsed. -/
def due (s : State) (c : Slot) : Bool := eligible (semi s) c && decide (c.delay.setWidth 32 ≤ elapsed s)

/-- How `Schedule()` ends: cancel, or arm for the least eligible delay. -/
def armLeast (s : State) : State :=
  match leastEligible s with
  | none => cancel s
  | some m => arm ((m.setWidth 32 - elapsed s).setWidth 16) m s

theorem eligible_fired (sp : U16) (c : Slot) : eligible sp { c with fired := true } = false := by
  simp [eligible]

theorem countP_fireAll_lt (q r : Slot → Bool) (s : State) (hr : ∀ c, r c = true → q c = true)
    (hq : ∀ c : Slot, q { c with fired := true } = false) (hex : ∃ c ∈ s.chans, r c = true) :
    (fireAll r s).chans.countP q < s.chans.countP q := by
  simp only [fireAll]
  generalize s.chans = l at hex
  induction l with
  | nil => simp at hex
  | cons c cs ih =>
    have hle : ∀ l : List Slot, (l.map fun c => if r c then { c with fired := true } else c).countP q ≤ l.countP q := by
      intro l
      induction l with
      | nil => simp
      | cons d ds ih' =>
        simp only [List.map_cons, List.countP_cons]
        by_cases h : r d = true <;> simp [h, hq, hr d, -List.countP_map] <;> omega
    simp only [List.map_cons, List.countP_cons]
    by_cases h : r c = true
    · have := hle cs; simp [h, hq, hr c, -List.countP_map]; omega
    · obtain ⟨d, hd, hrd⟩ := hex
      have hd' : d ∈ cs := by
        rcases List.mem_cons.1 hd with rfl | h'
        · exact absurd hrd h
        · exact h'
      have := ih ⟨d, hd', hrd⟩
      simp [h, -List.countP_map]; omega

theorem scheduleLoop_eq (p : Nat) (s : State) (hp : s.chans.countP (due s) < p) :
    scheduleLoop p s = armLeast (fireAll (due s) s) := by
  induction p generalizing s with
  | zero => omega
  | succ p ih =>
    unfold scheduleLoop
    cases h : leastEligible s with
    | none =>
      have hne := (leastEligible_eq_none s).1 h
      rw [fireAll_none _ _ fun c hc => by simp [due, hne c hc]]
      simp [armLeast, h]
    | some m =>
      obtain ⟨⟨c, hc, he, rfl⟩, hmin⟩ := (leastEligible_eq_some s m).1 h
      by_cases hel : c.delay.setWidth 32 ≤ elapsed s
      · have hsub : ∀ d, fires (semi s) c.delay d = true → due s d = true := by
          intro d hd
          simp only [fires, Bool.and_eq_true, decide_eq_true_eq] at hd
          simp only [due, Bool.and_eq_true, decide_eq_true_eq]
          exact ⟨hd.1, hd.2 ▸ hel⟩
        have hfd : ∀ d : Slot, due s { d with fired := true } = false := fun d => by simp [due, eligible_fired]
        have hex : ∃ d ∈ s.chans, fires (semi s) c.delay d = true := ⟨c, hc, by simp [fires, he]⟩
        have hdue : due (fire c.delay s) = due s := by rw [fire_eq_fireAll]; rfl
        have hlt : (fire c.delay s).chans.countP (due (fire c.delay s)) < p := by
          have := countP_fireAll_lt (due s) _ s hsub hfd hex
          rw [hdue, fire_eq_fireAll]; omega
        simp only [hel, if_true]
        rw [ih _ hlt, hdue, fire_eq_fireAll, fireAll_fireAll _ _ _ hsub hfd]
      · have hnd : ∀ d ∈ s.chans, due s d = false := by
          intro d hd
          by_contra hdd
          simp only [due, Bool.not_eq_false, Bool.and_eq_true, decide_eq_true_eq] at hdd
          have := hmin d hd hdd.1
          exact hel (by bv_omega)
        rw [fireAll_none _ _ hnd]
        simp [armLeast, h, hel]

theorem schedule_eq (s : State) : schedule s = armLeast (fireAll (due s) s) :=
  scheduleLoop_eq _ _ (Nat.lt_succ_of_le List.countP_le_length)

theorem due_iff (s : State) (c : Slot) :
    due s c = true ↔ eligible (semi s) c = true ∧ c.delay.toNat ≤ (s.now - s.tEdge).toNat := by
  simp only [due, Bool.and_eq_true, decide_eq_true_eq, elapsed, BitVec.le_def]
  rw [show (c.delay.setWidth 32).toNat = c.delay.toNat by simp; have := c.delay.isLt; omega]

theorem mem_fireAll (q : Slot → Bool) (s : State) (c : Slot) (h : c ∈ (fireAll q s).chans) :
    ∃ d ∈ s.chans, c = if q d then { d with fired := true } else d := by
  simp only [fireAll, List.mem_map] at h
  obtain ⟨d, hd, rfl⟩ := h
  exact ⟨d, hd, rfl⟩

/-- A dispatch followed by Schedule fires the slots of both at once, and then cancels or arms. -/
theorem schedule_fire (v : U16) (s : State) :
    schedule (fire v s) = armLeast (fireAll (fun c => fires (semi s) v c || due s c) s) := by
  rw [schedule_eq, fire_eq_fireAll, show due (fireAll (fires (semi s) v) s) = due s from rfl,
    ← fireAll_fireAll (fun c => fires (semi s) v c || due s c) (fires (semi s) v) s (fun c h => by simp [h])
      (fun c => by simp [fires, due, eligible_fired])]
  congr 1
  have same : ∀ c ∈ (fireAll (fires (semi s) v) s).chans, due s c = (fires (semi s) v c || due s c) := by
    intro c hc
    obtain ⟨d, -, rfl⟩ := mem_fireAll _ _ _ hc
    by_cases h : fires (semi s) v d = true
    · rw [if_pos h]; simp [fires, due, eligible_fired]
    · rw [if_neg h]; simp [h]
  simp only [fireAll]
  congr 1
  · exact List.map_congr_left fun c hc => by simp only [← same c hc]
  · congr 1; exact List.filter_congr fun c hc => by simp only [← same c hc]

/-- `armLeast` writes nothing but the timer. -/
theorem armLeast_frame (s : State) :
    armLeast s = { s with
      tmrArmed := (armLeast s).tmrArmed, tmrCnt := (armLeast s).tmrCnt
      armValue := (armLeast s).armValue, armEpoch := (armLeast s).armEpoch } := by
  unfold armLeast; split <;> rfl

/-- Schedule writes nothing but the timer, the gate lines and the FIRED bits. -/
theorem schedule_frame (s : State) :
    schedule s = { s with
      chans := (fireAll (due s) s).chans, gates := (fireAll (due s) s).gates
      tmrArmed := (schedule s).tmrArmed, tmrCnt := (schedule s).tmrCnt
      armValue := (schedule s).armValue, armEpoch := (schedule s).armEpoch } := by
  rw [schedule_eq]
  exact armLeast_frame _

end Sys2Proof.Machine
end

