-- ==== Sys2Proof/Laws/Step.lean ====
section
/-! SUPPORT. What the arbiter, the decoder and the fetch can answer. -/
namespace Sys2Proof.Machine

theorem arbiter_eq_some (s : State) (i : Instr) :
    arbiter s = some i ↔
      (i = .svcZc ∧ s.zcPend = true) ∨ (i = .svcTmr ∧ s.zcPend = false ∧ s.tmrPend = true) := by
  unfold arbiter requestVector
  cases s.zcPend <;> cases s.tmrPend <;> simp [decodeRequest, eq_comm]

theorem arbiter_eq_none (s : State) : arbiter s = none ↔ s.zcPend = false ∧ s.tmrPend = false := by
  unfold arbiter requestVector
  cases s.zcPend <;> cases s.tmrPend <;> simp [decodeRequest]

/-- A command word never decodes to a service (30_encoding.md R92). -/
theorem isCommand_of_decode (w : U32) (i : Instr) (h : decode w = .command i) : i.isCommand = true := by
  unfold decode at h
  split at h
  · cases h
  · rename_i row hrow
    split at h
    · cases h
      have hm := List.mem_of_getElem? hrow
      simp only [commandRows, List.mem_cons, List.not_mem_nil, or_false] at hm
      rcases hm with rfl | rfl | rfl | rfl | rfl | rfl | rfl | rfl | rfl | rfl | rfl | rfl <;> rfl
    · cases h

/-- A service is taken only as the arbiter enables it (00_scope.md R11). -/
theorem arbiter_of_select (s : State) (i : Instr) (h : (select s).kind = .service i) : arbiter s = some i := by
  unfold select at h
  split at h
  · split at h
    · rename_i ha; cases h; exact ha
    · cases h
  · split at h
    · rename_i ha
      cases h
      split at ha
      · cases ha
      · exact ha
    · cases h
  · cases h
  · split at h
    · rename_i ha; cases h; exact ha
    · cases h
  · cases h
  · cases h

/-- A fetch performs the step that is selected, with its input taken. -/
theorem fetch_eq (s : State) : fetch s = perform (select s).kind { s with inputs := (select s).rest } := rfl

/-- When an instruction is run, it is a command that the host's word decodes to, or the service that the arbiter enables,
in the state with some of the inputs taken. -/
theorem fetch_run (s u : State) (i : Instr) (h : fetch s = .run i u) :
    u = { s with inputs := (select s).rest } ∧ (i.isCommand = true ∨ arbiter s = some i) := by
  unfold fetch perform at h
  cases hk : (select s).kind with
  | tick => simp only [hk] at h; cases h
  | zcin v => simp only [hk] at h; cases h
  | service j => simp only [hk] at h; cases h; exact ⟨rfl, .inr (arbiter_of_select s _ hk)⟩
  | cmd w =>
    simp only [hk] at h
    split at h
    · rename_i hd; cases h; exact ⟨rfl, .inl (isCommand_of_decode _ _ hd)⟩
    · cases h
  | reset v => simp only [hk] at h; cases h
  | nothing => simp only [hk] at h; cases h

/-- When nothing is run, the step is an event, an answer to a word that names no command, or no step at all. -/
theorem fetch_done (s t : State) (h : fetch s = .done t) :
    ∃ rest, t = tick { s with inputs := rest } ∨ (∃ v, t = zcin v { s with inputs := rest }) ∨
      (∃ st, t = fail st { s with inputs := rest }) ∨
      (∃ v, (select s).kind = .reset v ∧ t = resetStep v { s with inputs := rest }) ∨
      t = { s with inputs := rest } := by
  refine ⟨(select s).rest, ?_⟩
  unfold fetch perform at h
  cases hk : (select s).kind with
  | tick => simp only [hk] at h; cases h; exact .inl rfl
  | zcin v => simp only [hk] at h; cases h; exact .inr (.inl ⟨v, rfl⟩)
  | service i => simp only [hk] at h; cases h
  | cmd w =>
    simp only [hk] at h
    split at h
    · cases h
    · cases h; exact .inr (.inr (.inl ⟨_, rfl⟩))
  | reset v => simp only [hk] at h; cases h; exact .inr (.inr (.inr (.inl ⟨v, rfl, rfl⟩)))
  | nothing => simp only [hk] at h; cases h; exact .inr (.inr (.inr (.inr rfl)))

/-- A TICK is taken only when the latency bound allows it. -/
theorem tickEnabled_of_select (s : State) (h : (select s).kind = .tick) : tickEnabled s = true := by
  by_contra hb
  unfold select at h
  split at h
  · split at h
    · cases h
    · rename_i ha
      obtain ⟨h1, h2⟩ := (arbiter_eq_none s).1 ha
      exact hb (by simp [tickEnabled, h1, h2])
  · simp only [hb] at h
    split at h
    · cases h
    · rename_i ha
      obtain ⟨h1, h2⟩ := (arbiter_eq_none s).1 ha
      exact hb (by simp [tickEnabled, h1, h2])
  · cases h
  · split at h <;> cases h
  · cases h
  · cases h

/-- Everything a step can be: a command that a host's word decodes to, a service that the arbiter enables, or one of the
steps of `fetch_done`. -/
theorem step_cases (s t : State) (h : step s = .next t) :
    (∃ i u, fetch s = .run i u ∧ u = { s with inputs := (select s).rest } ∧ exec i u = .next t ∧
      (i.isCommand = true ∨ arbiter s = some i)) ∨
    fetch s = .done t := by
  unfold step at h
  cases hf : fetch s with
  | run i u =>
    rw [hf] at h
    obtain ⟨hu, hi⟩ := fetch_run s u i hf
    exact .inl ⟨i, u, rfl, hu, h, hi⟩
  | done u => rw [hf] at h; injection h with h; exact .inr (congrArg _ h)

/-- A run peels off its first step. -/
theorem run_succ (k : Nat) (s t : State) (h : step s = .next t) :
    Sys2Proof.core.run (k + 1) s = Sys2Proof.core.run k t := by
  have h' : Sys2Proof.core.step s = .next t := h
  simp only [Host.Core.run, h']

end Sys2Proof.Machine
end

