-- ==== Sys2Proof/Tests/Slice0.lean ====
section
/-! SUPPORT. Tests, the expected values taken from the encodings of spec/30_encoding.md and the vectors of
spec/95_test_vectors.md, and a witness for every obligation that has hypotheses. -/
namespace Sys2Proof.Tests
open Sys2Proof.Machine

/-! ### Helpers -/

/-- The next state of an outcome, if it has one. -/
def nextOf : Host.Outcome State Fault Refusal → Option State
  | .next s => some s
  | .fault _ => none
  | .refused _ => none

/-- A field of the state after an instruction. -/
def after {α : Type} (i : Instr) (s : State) (f : State → α) : Option α := (nextOf (exec i s)).map f

/-- The answer to a command word. -/
def answer (w : U32) (s : State) : Option Response :=
  (nextOf (step { s with inputs := [.cmd w] })).bind (·.resp)

/-- A registered slot. -/
def slot (pin : U8) (delay : U16) (fired : Bool) : Slot := { pin := pin, delay := delay, active := true, fired := fired }

/-- A state in the middle of a half-cycle at 60 Hz, 500 microseconds after the edge, the timer armed for 1000. -/
def running : State :=
  { State.reset with
    chans := [slot 4#8 1000#16 false, slot 5#8 1000#16 false, slot 6#8 3000#16 false]
    en := true, pol := .both, fmode := .fixed60, zcState := .cycleActive, epoch := 1#32, zcPrev := true
    zcCapt := 100#32, tEdge := 100#32, now := 600#32
    tmrArmed := true, tmrCnt := 500#16, armValue := 1000#16, armEpoch := 1#32 }

/-- The same with the expiry of the armed delay pending. -/
def expired : State :=
  { running with now := 1100#32, tmrArmed := false, tmrCnt := 0#16, tmrPend := true, fireEpoch := 1#32 }

/-- The same with an edge pending. -/
def edge : State := { running with zcPend := true, zcCapt := 600#32 }

/-- All three slots registered, the last one free. -/
def twoOfThree : State := { running with chans := [slot 4#8 0#16 false, slot 5#8 0#16 true, Slot.reset] }

/-! ### Well-formedness: one ill-formed term for each check, refused -/

theorem test_wellFormed_accepts :
    ([.nop, .register 7#8, .release 2#8, .setdelay 2#8 0xFFFF#16, .getdelay 0#8, .getsemi, .getfreq, .setfmode 2#2,
      .wreg 0#8 0x1D#16, .wreg 1#8 0xFFFF#16, .rreg 0x10#8, .measure, .getchan 2#8, .svcZc, .svcTmr].all
        (Instr.wellFormed Config.reference)) = true := by decide

theorem test_wellFormed_refuses_pin : Instr.wellFormed Config.reference (.register 8#8) = false := by decide
theorem test_wellFormed_refuses_release_id : Instr.wellFormed Config.reference (.release 3#8) = false := by decide
theorem test_wellFormed_refuses_setdelay_id : Instr.wellFormed Config.reference (.setdelay 3#8 0#16) = false := by
  decide
theorem test_wellFormed_refuses_getdelay_id : Instr.wellFormed Config.reference (.getdelay 3#8) = false := by decide
theorem test_wellFormed_refuses_getchan_id : Instr.wellFormed Config.reference (.getchan 3#8) = false := by decide
theorem test_wellFormed_refuses_mode : Instr.wellFormed Config.reference (.setfmode 3#2) = false := by decide
theorem test_wellFormed_refuses_readOnly : Instr.wellFormed Config.reference (.wreg 2#8 0#16) = false := by decide
theorem test_wellFormed_refuses_ctrl_bit5 : Instr.wellFormed Config.reference (.wreg 0#8 0x20#16) = false := by decide
theorem test_wellFormed_refuses_ctrl_pol3 : Instr.wellFormed Config.reference (.wreg 0#8 0x06#16) = false := by decide
theorem test_wellFormed_refuses_register : Instr.wellFormed Config.reference (.rreg 0x11#8) = false := by decide

/-! ### Decoding: words written out from the rows of 30_encoding.md R82, R83, R92 -/

theorem test_decode_nop : decode 0b00000000000000000000000000000000#32 = .command .nop := by decide
theorem test_decode_register : decode 0b00010000000001000000000000000000#32 = .command (.register 4#8) := by decide
theorem test_decode_release : decode 0b00100000000000100000000000000000#32 = .command (.release 2#8) := by decide
theorem test_decode_setdelay : decode 0b00110000000000100000101110111000#32 = .command (.setdelay 2#8 3000#16) := by
  decide
theorem test_decode_getdelay : decode 0b01000000000000100000000000000000#32 = .command (.getdelay 2#8) := by decide
theorem test_decode_getsemi : decode 0b01010000000000000000000000000000#32 = .command .getsemi := by decide
theorem test_decode_getfreq : decode 0b01100000000000000000000000000000#32 = .command .getfreq := by decide
theorem test_decode_setfmode : decode 0b01110000000000000000000000000001#32 = .command (.setfmode 1#2) := by decide
theorem test_decode_wreg : decode 0b10000000000000010000011111010000#32 = .command (.wreg 1#8 2000#16) := by decide
theorem test_decode_rreg : decode 0b10010000000001000000000000000000#32 = .command (.rreg 4#8) := by decide
theorem test_decode_measure : decode 0b10100000000000000000000000000000#32 = .command .measure := by decide
theorem test_decode_getchan : decode 0b10110000000000010000000000000000#32 = .command (.getchan 1#8) := by decide
theorem test_decode_svcZc : decodeRequest 0b10#2 = some .svcZc ∧ decodeRequest 0b11#2 = some .svcZc := by decide
theorem test_decode_svcTmr : decodeRequest 0b01#2 = some .svcTmr ∧ decodeRequest 0b00#2 = none := by decide

/-- The vectors V1b to V1h and V1k of 95_test_vectors.md. -/
theorem test_decode_rejects :
    decode 0x00000001#32 = .rejected .mustBeZeroSet ∧ decode 0xC0000000#32 = .rejected .reservedOpcode ∧
    decode 0xFFFFFFFF#32 = .rejected .reservedOpcode ∧ decode 0x31000000#32 = .rejected .mustBeZeroSet ∧
    decode 0x2F030001#32 = .rejected .mustBeZeroSet ∧ decode 0x50010000#32 = .rejected .mustBeZeroSet ∧
    decode 0x70000004#32 = .rejected .mustBeZeroSet ∧ decode 0x90000001#32 = .rejected .mustBeZeroSet := by decide

theorem test_encode_examples :
    encode (.setdelay 2#8 3000#16) = (32, 0x30020BB8) ∧ encode (.setfmode 1#2) = (32, 0x70000001) ∧
    encode (.wreg 0#8 5#16) = (32, 0x80000005) ∧ encode .svcZc = (8, 2) ∧ encode .svcTmr = (8, 1) := by decide

theorem test_decodeTableWord :
    decodeTableWord 32 0xB0010000 = some (.getchan 1#8) ∧ decodeTableWord 32 0xC0000000 = none ∧
    decodeTableWord 8 2 = some .svcZc ∧ decodeTableWord 8 1 = some .svcTmr ∧ decodeTableWord 8 0 = none := by decide

/-! ### Reset, and an instruction run first after it -/

theorem test_reset_inv : State.reset.Inv := by
  refine ⟨?_, ?_, ?_, ?_, ?_, ?_, ?_⟩ <;> decide

/-- V68: STATUS after reset with the input high. -/
theorem test_reset_status : regRead .status (State.resetWith { Config.reference with zcInit := true }) = 0x40#32 := by
  decide

theorem test_withFetchWord_command :
    (nextOf (step (State.reset.withFetchWord 32 0x10040000))).bind (·.resp) = some ⟨.ok, 0#32⟩ := by decide

theorem test_withFetchWord_services :
    (nextOf (step (State.reset.withFetchWord 8 2))).map (·.epoch) = some 1#32 ∧
    (nextOf (step (State.reset.withFetchWord 8 1))).map (·.tfireCnt) = some 1#32 := by decide

/-! ### Instructions, one step each -/

/-- V1a. -/
theorem test_nop : answer 0x00000000#32 State.reset = some ⟨.ok, 0#32⟩ := by decide

/-- V2. -/
theorem test_register_first : after (.register 4#8) State.reset (·.chans[0]?) = some (some (slot 4#8 0xFFFF#16 false)) := by
  decide

/-- V3, V3b: the full registry, and the pin checked first. -/
theorem test_register_full :
    answer 0x10070000#32 running = some ⟨.errCapacity, 0#32⟩ ∧
    answer 0x10080000#32 running = some ⟨.errBadArg, 0#32⟩ := by decide

/-- V4b and a slot that was released already. -/
theorem test_release_bad_id :
    answer 0x20030000#32 running = some ⟨.errBadId, 0#32⟩ ∧
    answer 0x20020000#32 twoOfThree = some ⟨.errBadId, 0#32⟩ := by decide

/-- V4: only ACTIVE goes, so GETCHAN still shows pin and delay. -/
theorem test_release_keeps : after (.release 1#8) running (fun t => t.chans[1]?.map slotView) = some (some 0x03E80005#32) := by
  decide

/-- V5b, V5c. -/
theorem test_setdelay_clamps :
    answer 0x3002208C#32 running = some ⟨.ok, 8332#32⟩ ∧ answer 0x3002208D#32 running = some ⟨.ok, 65535#32⟩ := by
  decide

/-- V5g: in runtime mode before the first sample every delay becomes never. -/
theorem test_setdelay_no_semi :
    answer 0x30020001#32 { running with fmode := .runtime } = some ⟨.ok, 65535#32⟩ := by decide

/-- V6, V6c. -/
theorem test_getdelay :
    answer 0x40020000#32 running = some ⟨.ok, 3000#32⟩ ∧
    answer 0x40020000#32 twoOfThree = some ⟨.errBadId, 0#32⟩ := by decide

/-- V50. -/
theorem test_getsemi : answer 0x50000000#32 running = some ⟨.ok, 8333#32⟩ := by decide

/-- V49, V50. -/
theorem test_getfreq :
    answer 0x60000000#32 State.reset = some ⟨.ok, 50#32⟩ ∧ answer 0x60000000#32 running = some ⟨.ok, 60#32⟩ := by decide

/-- V52. -/
theorem test_freqHz : freqHz 7692#16 = 65#32 ∧ freqHz 9950#16 = 50#32 ∧ freqHz 11111#16 = 45#32 := by decide

/-- V1i. -/
theorem test_setfmode_refuses : answer 0x70000003#32 running = some ⟨.errBadArg, 0#32⟩ := by decide

/-- V69. -/
theorem test_setfmode_runtime : after (.setfmode 2#2) running (regRead .fmode) = some 2#32 := by decide

/-- V63. -/
theorem test_wreg_ctrl : after (.wreg 0#8 0x1D#16) State.reset (regRead .ctrl) = some 0x1D#32 := by decide

/-- V65: what a disable leaves of STATUS and of the countdown. -/
theorem test_wreg_disable :
    after (.wreg 0#8 0#16) { edge with fmonReq := true } (fun t => (regRead .status t, t.tmrCnt, t.epoch)) =
      some (0x60#32, 0#16, 1#32) := by decide

/-- V67. -/
theorem test_rreg_caps : answer 0x90100000#32 State.reset = some ⟨.ok, 0x00080003#32⟩ := by decide

/-- P1 step 11 and V1j. -/
theorem test_rreg_status :
    answer 0x90030000#32 running = some ⟨.ok, 0x43#32⟩ ∧ answer 0x90110000#32 running = some ⟨.errBadReg, 0#32⟩ := by
  decide

/-- V47. -/
theorem test_measure : after .measure State.reset (regRead .status) = some 0x20#32 := by decide

/-- V7. -/
theorem test_getchan :
    answer 0xB0010000#32 { running with chans := [Slot.reset, slot 5#8 1000#16 true] } = some ⟨.ok, 0x03E80305#32⟩ := by
  decide

/-- V7b, V7c. -/
theorem test_getchan_free :
    answer 0xB0020000#32 State.reset = some ⟨.ok, 0xFFFF0000#32⟩ ∧
    answer 0xB0030000#32 State.reset = some ⟨.errBadId, 0#32⟩ := by decide

/-- V41, V42: the ends of the sample range, from the old reference. -/
theorem test_svcZc_sample :
    after .svcZc { running with zcPend := true, tEdge := 50#32, zcCapt := 7742#32, fmonCont := true }
      (fun t => (t.semiMeas, t.oorCnt)) = some (7692#16, 0#32) ∧
    after .svcZc { running with zcPend := true, tEdge := 50#32, zcCapt := 7741#32, fmonCont := true }
      (fun t => (t.semiMeas, t.oorCnt)) = some (0#16, 1#32) := by decide

/-- V31 at its SVC_ZC: a delay overtaken by the latency fires at once, the next one is armed for what is left. -/
theorem test_svcZc_latency :
    after .svcZc { running with
        chans := [slot 0#8 2#16 false, slot 1#8 1000#16 false, Slot.reset], zcPend := true, zcCapt := 100#32, now := 103#32 }
      (fun t => (t.gates.take 2, t.tmrCnt, t.armValue)) = some ([true, false], 997#16, 1000#16) := by decide

/-- V28. -/
theorem test_svcTmr_live :
    after .svcTmr expired (fun t => (t.gates.drop 4, t.tmrCnt, t.armValue, t.tfireCnt)) =
      some ([true, true, false, false], 2000#16, 3000#16, 1#32) := by decide

/-- V29. -/
theorem test_svcTmr_stale :
    after .svcTmr { running with tmrPend := true, fireEpoch := 0#32 }
      (fun t => (t.gates.any id, t.staleCnt, t.tfireCnt, t.tmrCnt)) = some (false, 1#32, 1#32, 500#16) := by decide

/-- V25: the second TICK of a countdown of two expires. -/
theorem test_tick_expires :
    tick { running with tmrCnt := 2#16 } = { running with now := 601#32, tmrCnt := 1#16 } ∧
    (tick { running with tmrCnt := 1#16 }).tmrPend = true := by decide

/-- V16, V17: the debounce interval ends exactly. -/
theorem test_zcin_debounce :
    (zcin false { running with tEdge := 50#32, minRetrig := 2000#16, now := 2049#32 }).zcPend = false ∧
    (zcin false { running with tEdge := 50#32, minRetrig := 2000#16, now := 2050#32 }).zcCapt = 2050#32 := by decide

/-- V70. -/
theorem test_reset_step : resetStep false expired = State.reset := by decide

/-! ### Witnesses: concrete states and operands that meet the hypotheses of each obligation, clause by clause -/

theorem witness_DecodedWordsAreEncodedWords :
    decode 0x8001FFFF#32 = .command (.wreg 1#8 0xFFFF#16) ∧ decode 0x30FF0000#32 = .command (.setdelay 255#8 0#16) := by
  decide

theorem witness_ReservedOpcodesAnswerBadOp :
    ({ running with inputs := [.cmd 0xC0000000#32] }.inputs = .cmd 0xC0000000#32 :: [] ∧
      0xC ≤ (0xC0000000#32).toNat / 2 ^ 28) ∧
    ({ running with inputs := [.cmd 0xFFFFFFFF#32, .tick] }.inputs = .cmd 0xFFFFFFFF#32 :: [.tick] ∧
      0xC ≤ (0xFFFFFFFF#32).toNat / 2 ^ 28) := by decide

theorem witness_MustBeZeroBitsAnswerBadArg :
    ∀ p ∈ [(0x00000001#32, 0x0, 0x0FFFFFFF#32), (0x11000000#32, 0x1, 0x0F00FFFF#32), (0x28000000#32, 0x2, 0x0F00FFFF#32),
        (0x31000000#32, 0x3, 0x0F000000#32), (0x40000001#32, 0x4, 0x0F00FFFF#32), (0x50010000#32, 0x5, 0x0FFFFFFF#32),
        (0x60800000#32, 0x6, 0x0FFFFFFF#32), (0x70000004#32, 0x7, 0x0FFFFFFC#32), (0x88000000#32, 0x8, 0x0F000000#32),
        (0x90008000#32, 0x9, 0x0F00FFFF#32), (0xA0000001#32, 0xA, 0x0FFFFFFF#32), (0xB1000000#32, 0xB, 0x0F00FFFF#32)],
      { running with inputs := [.cmd p.1] }.inputs = .cmd p.1 :: [] ∧ p.1.toNat / 2 ^ 28 = p.2.1 ∧ p.1 &&& p.2.2 ≠ 0#32 := by decide

theorem witness_StepRunsTheDecodedCommand :
    { running with inputs := [.cmd 0x30020BB8#32, .svc] }.inputs = .cmd 0x30020BB8#32 :: [.svc] ∧
    decode 0x30020BB8#32 = .command (.setdelay 2#8 3000#16) := by decide

theorem witness_ArbiterServesZeroCrossFirst :
    { expired with zcPend := true }.zcPend = true ∧ (expired.zcPend = false ∧ expired.tmrPend = true) ∧
    (running.zcPend = false ∧ running.tmrPend = false) := by decide

theorem witness_StepFollowsTheInputs :
    arbiter expired = some .svcTmr ∧ arbiter edge = some .svcZc ∧ arbiter running = none ∧
    tickEnabled running = true ∧ tickEnabled { expired with latMax := 1 } = true ∧ tickEnabled expired = false ∧
    { expired with inputs := [.tick] }.inputs = .tick :: [] ∧ { running with inputs := [.svc] }.inputs = .svc :: [] ∧
    { running with inputs := [.zcin false] }.inputs = .zcin false :: [] ∧
    { running with inputs := [.reset true] }.inputs = .reset true :: [] ∧ running.inputs = [] ∧
    ({ running with inputs := [.cmd 0x00000001#32] }.inputs = .cmd 0x00000001#32 :: [] ∧
      decode 0x00000001#32 = .rejected .mustBeZeroSet ∧ decode 0xC0000000#32 = .rejected .reservedOpcode) := by decide

theorem witness_EveryCommandWordIsAnswered :
    { running with inputs := [.cmd 0xC0000000#32] }.inputs = .cmd 0xC0000000#32 :: [] ∧
    answer 0xC0000000#32 running = some ⟨.errBadOp, 0#32⟩ ∧ Status.errBadOp ≠ .ok := by decide

theorem witness_RegisterTakesTheLowestFreeSlot :
    running.numPins ≤ (8#8).toNat ∧ (7#8).toNat < running.numPins ∧ (∀ c ∈ running.chans, c.active = true) ∧
    (7#8).toNat < twoOfThree.numPins ∧ twoOfThree.chans[2]? = some Slot.reset ∧ Slot.reset.active = false ∧
    (twoOfThree.chans[0]?.map (·.active) = some true ∧ twoOfThree.chans[1]?.map (·.active) = some true) ∧
    State.reset.chans[0]? = some Slot.reset := by decide

/-- For RELEASE, SETDELAY and GETDELAY: an id out of range, a free slot, an active slot. -/
theorem witness_ActiveIdCommands :
    running.chans[(3#8).toNat]? = none ∧ twoOfThree.chans[(2#8).toNat]? = some Slot.reset ∧
    Slot.reset.active = false ∧ running.chans[(2#8).toNat]? = some (slot 6#8 3000#16 false) ∧
    (slot 6#8 3000#16 false).active = true := by decide

/-- SETDELAY: the last stored delay, the first clamped one, never, and 0. -/
theorem witness_SetdelayStoresOrClamps :
    8332#16 = (if 8332#16 = 0xFFFF#16 ∨ semi running ≤ 8332#16 then 0xFFFF#16 else 8332#16) ∧
    0xFFFF#16 = (if 8333#16 = 0xFFFF#16 ∨ semi running ≤ 8333#16 then 0xFFFF#16 else 8333#16) ∧
    0xFFFF#16 = (if 0xFFFF#16 = 0xFFFF#16 ∨ semi running ≤ 0xFFFF#16 then 0xFFFF#16 else 0xFFFF#16) ∧
    0#16 = (if 0#16 = 0xFFFF#16 ∨ semi running ≤ 0#16 then 0xFFFF#16 else 0#16) := by decide

theorem witness_GetchanReadsTheWholeSlot :
    running.numSlots ≤ (3#8).toNat ∧ running.chans[(2#8).toNat]? = some (slot 6#8 3000#16 false) ∧
    twoOfThree.chans[(2#8).toNat]? = some Slot.reset := by decide

theorem witness_SemiPeriodByMode :
    State.reset.fmode = .fixed50 ∧ running.fmode = .fixed60 ∧
    ({ running with fmode := .runtime, semiValid := true }.fmode = .runtime ∧
      { running with fmode := .runtime, semiValid := true }.semiValid = true) ∧
    ({ running with fmode := .runtime }.fmode = .runtime ∧
      { running with fmode := .runtime }.semiValid = false) := by decide

theorem witness_FrequencyIsTheNearestHertz : 1#16 ≠ 0#16 ∧ 0xFFFF#16 ≠ 0#16 := by decide

theorem witness_FrequencySampleIsTakenInRangeOnly :
    (7692 ≤ (7692#32).toNat ∧ (7692#32).toNat ≤ 11111) ∧ (7692 ≤ (11111#32).toNat ∧ (11111#32).toNat ≤ 11111) ∧
    ((7691#32).toNat < 7692 ∨ 11111 < (7691#32).toNat) ∧ ((11112#32).toNat < 7692 ∨ 11111 < (11112#32).toNat) := by
  decide

theorem witness_SetfmodeStoresTheMode :
    ∀ p ∈ [(0#2, FreqMode.fixed50), (1#2, .fixed60), (2#2, .runtime)],
      p ∈ [(0#2, FreqMode.fixed50), (1#2, .fixed60), (2#2, .runtime)] ∧ p.1 ≠ 3#2 := by decide

theorem witness_WregWritesCtrlAndMinRetrig :
    (2#8 ≠ 0#8 ∧ 2#8 ≠ 1#8) ∧ (255#8 ≠ 0#8 ∧ 255#8 ≠ 1#8) ∧ 32 ≤ (0x20#16).toNat ∧ (0x1E#16).toNat / 2 % 4 = 3 ∧
    ((0x1D#16).toNat < 32 ∧
      ((0x1D#16).toNat / 2 % 4, Polarity.both) ∈ [(0, Polarity.rising), (1, .falling), (2, .both)] ∧
      (0x1D#16).toNat % 2 = 1) ∧
    ((0x01#16).toNat / 2 % 4, Polarity.rising) ∈ [(0, Polarity.rising), (1, .falling), (2, .both)] ∧
    ((0x03#16).toNat / 2 % 4, Polarity.falling) ∈ [(0, Polarity.rising), (1, .falling), (2, .both)] := by decide

theorem witness_DisablingQuiesces :
    ((0x00#16).toNat < 32 ∧
      ((0x00#16).toNat / 2 % 4, Polarity.rising) ∈ [(0, Polarity.rising), (1, .falling), (2, .both)] ∧
      (0x00#16).toNat % 2 = 0) ∧
    ((0x1C#16).toNat < 32 ∧
      ((0x1C#16).toNat / 2 % 4, Polarity.both) ∈ [(0, Polarity.rising), (1, .falling), (2, .both)] ∧
      (0x1C#16).toNat % 2 = 0) := by decide

/-- The indices at the ends of both clauses, and V67b: CAPS at its largest. -/
theorem witness_RregReadsEveryRegister :
    0x10 < (0x11#8).toNat ∧ 0x10 < (0xFF#8).toNat ∧ (0x00#8).toNat = 0x00 ∧ (0x10#8).toNat = 0x10 ∧
    capsView (State.resetWith { n := 256, npins := 256, latMax := 0, zcInit := false }) = 0x01000100#32 := by
  refine ⟨by decide, by decide, by decide, by decide, ?_⟩
  simp only [capsView, State.numSlots, State.numPins, State.resetWith, List.length_replicate]
  decide

theorem witness_IllFormedCommandsAreRefusedWhole :
    Config.reference.n = running.numSlots ∧ Config.reference.npins = running.numPins ∧
    ∀ i ∈ [Instr.register 8#8, .release 3#8, .setdelay 3#8 0#16, .getdelay 3#8, .getchan 3#8, .setfmode 3#2,
        .wreg 2#8 0#16, .wreg 0#8 0x20#16, .wreg 0#8 0x06#16, .rreg 0x11#8],
      i.isCommand = true ∧ i.wellFormed Config.reference = false := by decide

/-- No edge; an edge accepted; rejected with the edge of the half-cycle and with a pending edge as the reference; the
wrong polarity; disabled. The distances are 1999 and 2000 against a MIN_RETRIG of 2000. -/
theorem witness_ZeroCrossInputLatchesQualifyingEdges :
    true = running.zcPrev ∧ false ≠ running.zcPrev ∧ running.en = true ∧ running.pol = .both ∧
    ((2100#32 - 100#32).toNat = 2000 ∧ ¬(2000 < (2000#16).toNat)) ∧
    ((2099#32 - 100#32).toNat = 1999 ∧ 1999 < (2000#16).toNat) ∧
    (edge.zcPend = true ∧ (edge.now - edge.zcCapt).toNat < (1#16).toNat) ∧
    (running.zcPend = false ∧ running.zcState = .cycleActive ∧ (running.now - running.tEdge).toNat < (501#16).toNat) ∧
    ¬({ running with pol := .rising }.pol = .rising ∧ false = true) ∧ State.reset.en = false := by decide

theorem witness_SvcZcRunsTheHandler :
    edge.zcPend = true ∧ (edge.zcState = .cycleActive ∧ { edge with fmonReq := true }.fmonReq = true) ∧
    ({ State.reset with zcPend := true }.zcPend = true ∧ State.reset.zcState ≠ .cycleActive) := by decide

theorem witness_SvcZcStartsTheHalfCycle :
    (∃ t, exec .svcZc edge = .next t) ∧ 0 < edge.gates.length ∧ 7 < edge.gates.length :=
  ⟨⟨_, rfl⟩, by decide, by decide⟩

theorem witness_TickCountsDownAndExpires :
    State.reset.tmrArmed = false ∧ (running.tmrArmed = true ∧ { running with tmrCnt := 2#16 }.tmrCnt ≠ 1#16) ∧
    { running with tmrCnt := 1#16 }.tmrCnt = 1#16 := by decide

theorem witness_LatencyBoundBlocksTheTick :
    tickEnabled { edge with latMax := 1 } = true ∧ tickEnabled { edge with latMax := 1, zcWait := 1 } = false := by
  decide

/-- At 1000 in `running` the slots 0 and 1 are chosen and slot 2 is not; at 8333 none would be. -/
theorem witness_FireAssertsExactlyTheEligibleChannels :
    ∃ chosen : Slot → Prop,
      (∀ c, chosen c ↔
        c.active = true ∧ c.fired = false ∧ c.delay ≠ 0xFFFF#16 ∧ c.delay < semi running ∧ c.delay = 1000#16) ∧
      running.chans[0]? = some (slot 4#8 1000#16 false) ∧ chosen (slot 4#8 1000#16 false) ∧
      running.chans[2]? = some (slot 6#8 3000#16 false) ∧ ¬chosen (slot 6#8 3000#16 false) ∧
      7 < running.gates.length :=
  ⟨fun c => c.active = true ∧ c.fired = false ∧ c.delay ≠ 0xFFFF#16 ∧ c.delay < semi running ∧ c.delay = 1000#16,
    fun _ => Iff.rfl, by decide, by decide, by decide, by decide, by decide⟩

/-- Nothing eligible; the least eligible delay elapsed to the microsecond; one microsecond before. -/
theorem witness_ScheduleMeetsItsLoop :
    (∀ c ∈ State.reset.chans, eligible (semi State.reset) c = false) ∧
    (eligible (semi expired) (slot 4#8 1000#16 false) = true ∧ slot 4#8 1000#16 false ∈ expired.chans ∧
      (∀ d ∈ expired.chans, eligible (semi expired) d = true → (slot 4#8 1000#16 false).delay ≤ d.delay) ∧
      (slot 4#8 1000#16 false).delay.toNat ≤ (expired.now - expired.tEdge).toNat) ∧
    (({ running with now := 1099#32 }.now - running.tEdge).toNat < (slot 4#8 1000#16 false).delay.toNat) := by decide

theorem witness_SvcTmrFiresOnlyItsOwnEpoch :
    (expired.tmrPend = true ∧ expired.zcPend = false ∧ expired.fireEpoch = expired.epoch) ∧
    ({ expired with epoch := 2#32 }.fireEpoch ≠ { expired with epoch := 2#32 }.epoch) := by decide

/-- With slot 0 not due any more (set to never) and slot 1 due. -/
theorem witness_LiveSvcTmrFiresWhatIsDue :
    ∃ s t : State, s.fireEpoch = s.epoch ∧ exec .svcTmr s = .next t ∧
      s.chans[0]? = some (slot 4#8 0xFFFF#16 false) ∧ eligible (semi s) (slot 4#8 0xFFFF#16 false) = false ∧
      s.chans[1]? = some (slot 5#8 1000#16 false) ∧ eligible (semi s) (slot 5#8 1000#16 false) = true ∧
      (slot 5#8 1000#16 false).delay = s.armValue ∧ 7 < s.gates.length :=
  ⟨{ expired with chans := [slot 4#8 0xFFFF#16 false, slot 5#8 1000#16 false, slot 6#8 3000#16 false] }, _,
    by decide, rfl, by decide, by decide, by decide, by decide, by decide, by decide⟩

theorem witness_EdgeBeforeExpiryMakesItStale :
    ∃ s t : State, s.zcPend = true ∧ s.tmrPend = true ∧ s.fireEpoch = s.epoch ∧ exec .svcZc s = .next t :=
  ⟨{ expired with zcPend := true, zcCapt := 1100#32 }, _, rfl, rfl, rfl, rfl⟩

theorem witness_ResetClearsEveryPieceOfState :
    { expired with inputs := [.reset true, .tick] }.inputs = .reset true :: [.tick] ∧
    { expired with inputs := [.reset false] }.inputs = .reset false :: [] := by decide

/-- The least and the greatest parameters. -/
theorem witness_InvariantHoldsAfterReset :
    Config.InRange { n := 1, npins := 1, latMax := 0, zcInit := false } ∧
    Config.InRange { n := 256, npins := 256, latMax := 9, zcInit := true } := by decide

/-- Running, with the timer armed; and with the expiry pending. -/
theorem witness_inv_running : running.Inv := by
  refine ⟨?_, ?_, ?_, ?_, ?_, ?_, ?_⟩ <;> decide

theorem witness_inv_expired : expired.Inv := by
  refine ⟨?_, ?_, ?_, ?_, ?_, ?_, ?_⟩ <;> decide

theorem witness_EveryStepKeepsTheInvariant :
    (∃ s t : State, s.Inv ∧ step s = .next t) ∧ ∃ s t : State, s.Inv ∧ s.tmrPend = true ∧ step s = .next t :=
  ⟨⟨running, _, witness_inv_running, rfl⟩, expired, _, witness_inv_expired, rfl, rfl⟩

theorem witness_ParametersNeverChange : ∃ t, step expired = .next t := ⟨_, rfl⟩

/-- The last TICK of a countdown; and a request that waits while the host reads STATUS. -/
theorem witness_ExpiryKeepsItsArmingUntilServed :
    (∃ s t : State, s.Inv ∧ step s = .next t ∧ (select s).kind = .tick ∧ s.tmrArmed = true ∧ t.tmrArmed = false) ∧
    ∃ s t : State, s.Inv ∧ step s = .next t ∧ s.tmrPend = true ∧ s.tmrArmed = false ∧
      (∀ i, (select s).kind ≠ .service i) ∧ (∀ v, (select s).kind ≠ .reset v) ∧
      ∀ u value, fetch s = .run (.wreg 0#8 value) u → value.toNat % 2 = 1 := by
  refine ⟨⟨{ running with tmrCnt := 1#16, now := 1099#32 }, _, ?_, rfl, rfl, rfl, rfl⟩,
    { expired with inputs := [.cmd 0x90030000#32] }, _, witness_inv_expired, rfl, rfl, rfl,
    fun i h => (by cases h), fun v h => (by cases h), fun u value h => (by cases h)⟩
  refine ⟨?_, ?_, ?_, ?_, ?_, ?_, ?_⟩ <;> decide

/-- A line rises in SVC_ZC (delay 0), and in SVC_TMR. -/
theorem witness_GatesRiseOnlyInLiveServices :
    (∃ s t : State, step s = .next t ∧ s.gates[4]? = some false ∧ t.gates[4]? = some true) ∧
    ∃ s t : State, step s = .next t ∧ s.gates[5]? = some false ∧ t.gates[5]? = some true :=
  ⟨⟨{ edge with chans := [slot 4#8 0#16 false] }, _, rfl, by decide, by decide⟩, expired, _, rfl, by decide, by decide⟩

/-- A line falls in SVC_ZC, in a WREG of CTRL with `EN = 0`, and in RESET. -/
theorem witness_GatesFallOnlyAtEdgeQuiesceOrReset :
    (∃ t, step { edge with gates := [true] } = .next t ∧ t.gates[0]? = some false) ∧
    (∃ t, step { running with gates := [true], inputs := [.cmd 0x80000000#32] } = .next t ∧ t.gates[0]? = some false) ∧
    ∃ t, step { running with gates := [true], inputs := [.reset false] } = .next t ∧ t.gates[0]? = some false :=
  ⟨⟨_, rfl, by decide⟩, ⟨_, rfl, by decide⟩, _, rfl, by decide⟩

/-- An SVC_ZC, a quiesce and a TICK. -/
theorem witness_EpochAndCycleChangeOnlyAtServices :
    (∃ t, step edge = .next t ∧ ∀ v, (select edge).kind ≠ .reset v) ∧
    (∃ s t : State, step s = .next t ∧ (∀ v, (select s).kind ≠ .reset v) ∧ t.zcState ≠ s.zcState) ∧
    ∃ t, step running = .next t ∧ ∀ v, (select running).kind ≠ .reset v :=
  ⟨⟨_, rfl, fun v h => (by cases h)⟩,
    ⟨{ running with inputs := [.cmd 0x80000000#32] }, _, rfl, fun v h => (by cases h), by decide⟩,
    _, rfl, fun v h => (by cases h)⟩

/-- A command that writes the registry, one that writes CTRL, one that quiesces. -/
theorem witness_HostCommandsWriteOnlyTheirState :
    (∃ t, (Instr.release 1#8).isCommand = true ∧ exec (.release 1#8) running = .next t) ∧
    (∃ t, (Instr.wreg 0#8 0x1D#16).isCommand = true ∧ exec (.wreg 0#8 0x1D#16) running = .next t) ∧
    ∃ t, (Instr.wreg 0#8 0#16).isCommand = true ∧ exec (.wreg 0#8 0#16) running = .next t :=
  ⟨⟨_, rfl, rfl⟩, ⟨_, rfl, rfl⟩, _, rfl, rfl⟩

theorem witness_ServicesWriteOnlyTheirState :
    (∃ t, exec .svcZc edge = .next t) ∧ ∃ t, exec .svcTmr expired = .next t := ⟨⟨_, rfl⟩, _, rfl⟩

/-- An active slot; and a FIRED bit cleared by SVC_ZC, by a REGISTER of a released slot, and by a quiesce. -/
theorem witness_PinIsImmutableAndFiredIsKept :
    (∃ t, step running = .next t ∧ (∀ v, (select running).kind ≠ .reset v) ∧
      running.chans[2]? = some (slot 6#8 3000#16 false) ∧ t.chans[2]? = some (slot 6#8 3000#16 false)) ∧
    ∀ s ∈ [{ edge with chans := [slot 4#8 9000#16 true] },
        { running with chans := [{ slot 4#8 9000#16 true with active := false }], inputs := [.cmd 0x10040000#32] },
        { running with chans := [slot 4#8 9000#16 true], inputs := [.cmd 0x80000000#32] }],
      (s.chans[0]?.map (·.fired) = some true) ∧
      ((nextOf (step s)).map fun t => t.chans[0]?.map (·.fired)) = some (some false) :=
  ⟨⟨_, rfl, fun v h => (by cases h), by decide, by decide⟩, by decide⟩

theorem witness_ReadsChangeNothing :
    (∃ t, exec .getsemi running = .next t) ∧ (∃ t, exec .getfreq running = .next t) ∧
    (∃ t, exec (.getdelay 2#8) running = .next t) ∧ (∃ t, exec (.getchan 2#8) running = .next t) ∧
    ∃ t, exec (.rreg 0x10#8) running = .next t := ⟨⟨_, rfl⟩, ⟨_, rfl⟩, ⟨_, rfl⟩, ⟨_, rfl⟩, _, rfl⟩

theorem witness_DiagnosticCountersInfluenceNothing :
    ∃ s₁ s₂ t₁ t₂ : State, s₁ ≠ s₂ ∧ s₁.withoutDiagnostics = s₂.withoutDiagnostics ∧
      step s₁ = .next t₁ ∧ step s₂ = .next t₂ :=
  ⟨expired, { expired with staleCnt := 7#32, tfireCnt := 9#32, oorCnt := 0xFFFFFFFF#32 }, _, _, by decide, rfl, rfl, rfl⟩

theorem witness_ArmedDelayFiresOnTime :
    running.Inv ∧ running.Quiescent ∧ running.inputs = [] ∧ running.tmrArmed = true ∧
    slot 4#8 1000#16 false ∈ running.chans ∧ eligible (semi running) (slot 4#8 1000#16 false) = true ∧
    (slot 4#8 1000#16 false).delay = running.armValue :=
  ⟨witness_inv_running, by decide, by decide, by decide, by decide, by decide, by decide⟩

end Sys2Proof.Tests
end

/-! How a step follows from the selected next input (00_scope.md R10 to R12). -/
namespace Sys2Proof.Machine

/-! What `select` answers for each head of the queue. -/

theorem select_zcin {s : State} {v : Bool} {rest : List Event} (h : s.inputs = .zcin v :: rest) :
    select s = ⟨.zcin v, rest⟩ := by simp only [select, h]

theorem select_reset {s : State} {v : Bool} {rest : List Event} (h : s.inputs = .reset v :: rest) :
    select s = ⟨.reset v, rest⟩ := by simp only [select, h]

theorem select_cmd {s : State} {w : U32} {rest : List Event} (h : s.inputs = .cmd w :: rest) :
    select s = ⟨.cmd w, rest⟩ := by simp only [select, h]

theorem select_svc_enabled {s : State} {i : Instr} {rest : List Event} (h : s.inputs = .svc :: rest)
    (ha : arbiter s = some i) : select s = ⟨.service i, rest⟩ := by simp only [select, h, ha]

theorem select_svc_none {s : State} {rest : List Event} (h : s.inputs = .svc :: rest)
    (ha : arbiter s = none) : select s = ⟨.nothing, rest⟩ := by simp only [select, h, ha]

theorem select_tick_enabled {s : State} {rest : List Event} (h : s.inputs = .tick :: rest)
    (ht : tickEnabled s = true) : select s = ⟨.tick, rest⟩ := by simp only [select, h, ht, if_true]

/-- A TICK that the latency bound forbids stays at the head of the queue (log 4). -/
theorem select_tick_blocked {s : State} {i : Instr} {rest : List Event} (h : s.inputs = .tick :: rest)
    (ht : tickEnabled s = false) (ha : arbiter s = some i) : select s = ⟨.service i, s.inputs⟩ := by
  simp only [select, h, ht, ha, Bool.false_eq_true, if_false]

theorem select_nil_enabled {s : State} {i : Instr} (h : s.inputs = []) (ha : arbiter s = some i) :
    select s = ⟨.service i, s.inputs⟩ := by simp only [select, h, ha]

theorem select_nil_none {s : State} (h : s.inputs = []) (ha : arbiter s = none) :
    select s = ⟨.tick, s.inputs⟩ := by simp only [select, h, ha]

/-! What `step` answers for each kind of selected step. -/

theorem step_of_fetch_run {s u : State} {i : Instr} (h : fetch s = .run i u) : step s = exec i u := by
  simp only [step, h]

theorem step_of_fetch_done {s t : State} (h : fetch s = .done t) : step s = .next t := by
  simp only [step, h]

theorem fetch_of_select {s : State} {k : StepKind} {rest : List Event} (h : select s = ⟨k, rest⟩) :
    fetch s = perform k { s with inputs := rest } := by rw [fetch_eq, h]

theorem step_of_select_service {s : State} {i : Instr} {rest : List Event} (h : select s = ⟨.service i, rest⟩) :
    step s = exec i { s with inputs := rest } := step_of_fetch_run (fetch_of_select h)

theorem step_of_select_tick {s : State} {rest : List Event} (h : select s = ⟨.tick, rest⟩) :
    step s = .next (tick { s with inputs := rest }) := step_of_fetch_done (fetch_of_select h)

theorem step_of_select_zcin {s : State} {v : Bool} {rest : List Event} (h : select s = ⟨.zcin v, rest⟩) :
    step s = .next (zcin v { s with inputs := rest }) := step_of_fetch_done (fetch_of_select h)

theorem step_of_select_reset {s : State} {v : Bool} {rest : List Event} (h : select s = ⟨.reset v, rest⟩) :
    step s = .next (resetStep v { s with inputs := rest }) := step_of_fetch_done (fetch_of_select h)

theorem step_of_select_nothing {s : State} {rest : List Event} (h : select s = ⟨.nothing, rest⟩) :
    step s = .next { s with inputs := rest } := step_of_fetch_done (fetch_of_select h)

theorem perform_cmd_rejected {w : U32} {e : DecodeError} (s : State) (h : decode w = .rejected e) :
    perform (.cmd w) s = .done (fail (decodeStatus e) s) := by simp only [perform, h]

/-- A word that names no command is answered with its error status (30_encoding.md R85). -/
theorem step_of_select_rejected {s : State} {w : U32} {e : DecodeError} {rest : List Event}
    (h : select s = ⟨.cmd w, rest⟩) (hd : decode w = .rejected e) :
    step s = .next (fail (decodeStatus e) { s with inputs := rest }) :=
  step_of_fetch_done ((fetch_of_select h).trans (perform_cmd_rejected _ hd))

/-- Settles O9: each clause is what `select` answers for the head of the queue, then what `step` answers for that. -/
theorem stepFollowsTheInputs : Obligations.StepFollowsTheInputs := by
  intro s rest
  refine ⟨?zcin, ?reset, ?rejected, ?svcEnabled, ?svcNone, ?tickEnabled, ?tickBlocked, ?nilEnabled, ?nilNone⟩
  case zcin => exact fun v h => step_of_select_zcin (select_zcin h)
  case reset => exact fun v h => step_of_select_reset (select_reset h)
  case rejected => exact fun w e h hd => step_of_select_rejected (select_cmd h) hd
  case svcEnabled => exact fun i h ha => step_of_select_service (select_svc_enabled h ha)
  case svcNone => exact fun h ha => step_of_select_nothing (select_svc_none h ha)
  case tickEnabled => exact fun h ht => step_of_select_tick (select_tick_enabled h ht)
  case tickBlocked => exact fun i h ht ha => step_of_select_service (select_tick_blocked h ht ha)
  case nilEnabled => exact fun i h ha => step_of_select_service (select_nil_enabled h ha)
  case nilNone => exact fun h ha => step_of_select_tick (select_nil_none h ha)

end Sys2Proof.Machine

/-! Everything a host command can do, said once (20_memory.md R67, R68). -/
namespace Sys2Proof.Machine

/-- The states that a host command can answer, with the guard of each write. -/
inductive CommandEffect (s : State) : Instr → State → Prop where
  /-- The command only answers: a read, NOP, or a refusal. -/
  | answers (i : Instr) (st : Status) (d : U32) : CommandEffect s i (respond st d s)
  /-- 40_registry_commands.md R101 -/
  | registers {pin : U8} {k : Nat} (hpin : pin.toNat < s.numPins) (hfree : lowestFree s.chans = some k) :
      CommandEffect s (.register pin)
        (respond .ok (BitVec.ofNat 32 k) (setSlot k { pin := pin, delay := never, active := true, fired := false } s))
  /-- 40_registry_commands.md R102 -/
  | releases {id : U8} {c : Slot} (hc : activeSlot id s = some c) :
      CommandEffect s (.release id) (respond .ok 0#32 (setSlot id.toNat { c with active := false } s))
  /-- 40_registry_commands.md R103 -/
  | setsDelay {id : U8} {delay : U16} {c : Slot} (hc : activeSlot id s = some c) :
      CommandEffect s (.setdelay id delay)
        (respond .ok ((clampDelay (semi s) delay).setWidth 32)
          (setSlot id.toNat { c with delay := clampDelay (semi s) delay } s))
  /-- 43_frequency.md R177 -/
  | setsMode {mode : U2} {m : FreqMode} (hm : freqModeOf mode = some m) :
      CommandEffect s (.setfmode mode) (respond .ok 0#32 { s with fmode := m })
  /-- 43_frequency.md R178 -/
  | requestsSample : CommandEffect s .measure (respond .ok 0#32 { s with fmonReq := true })
  /-- 44_config_regs.md R190 -/
  | setsMinRetrig {index : U8} {value : U16} (hr : regOfIndex index = some .minRetrig) :
      CommandEffect s (.wreg index value) (respond .ok 0#32 { s with minRetrig := value })
  /-- 44_config_regs.md R190, with `EN = 1` -/
  | enables {index : U8} {value : U16} {p : Polarity} (hr : regOfIndex index = some .ctrl)
      (hp : ctrlPol value = some p) (hen : ctrlEn value = true) :
      CommandEffect s (.wreg index value)
        (respond .ok 0#32
          { s with en := true, pol := p, pullup := ctrlPullup value, fmonCont := ctrlFmonCont value })
  /-- 44_config_regs.md R192 -/
  | disables {index : U8} {value : U16} {p : Polarity} (hr : regOfIndex index = some .ctrl)
      (hp : ctrlPol value = some p) (hen : ctrlEn value = false) :
      CommandEffect s (.wreg index value)
        (respond .ok 0#32
          (quiesce { s with en := false, pol := p, pullup := ctrlPullup value, fmonCont := ctrlFmonCont value }))

theorem execRegister_effect {pin : U8} {s t : State} (h : execRegister pin s = .next t) :
    CommandEffect s (.register pin) t := by
  unfold execRegister at h
  split at h
  next hpin =>
    split at h
    next => cases h; exact .answers _ _ _
    next hfree => cases h; exact .registers hpin hfree
  next => cases h; exact .answers _ _ _

theorem execRelease_effect {id : U8} {s t : State} (h : execRelease id s = .next t) :
    CommandEffect s (.release id) t := by
  unfold execRelease at h
  split at h
  next => cases h; exact .answers _ _ _
  next hc => cases h; exact .releases hc

theorem execSetdelay_effect {id : U8} {delay : U16} {s t : State} (h : execSetdelay id delay s = .next t) :
    CommandEffect s (.setdelay id delay) t := by
  unfold execSetdelay at h
  split at h
  next => cases h; exact .answers _ _ _
  next hc => cases h; exact .setsDelay hc

theorem execGetdelay_effect {id : U8} {s t : State} (h : execGetdelay id s = .next t) :
    CommandEffect s (.getdelay id) t := by
  unfold execGetdelay at h
  split at h <;> cases h <;> exact .answers _ _ _

theorem execGetchan_effect {id : U8} {s t : State} (h : execGetchan id s = .next t) :
    CommandEffect s (.getchan id) t := by
  unfold execGetchan at h
  split at h <;> cases h <;> exact .answers _ _ _

theorem execSetfmode_effect {mode : U2} {s t : State} (h : execSetfmode mode s = .next t) :
    CommandEffect s (.setfmode mode) t := by
  unfold execSetfmode at h
  split at h
  next => cases h; exact .answers _ _ _
  next hm => cases h; exact .setsMode hm

theorem execRreg_effect {index : U8} {s t : State} (h : execRreg index s = .next t) :
    CommandEffect s (.rreg index) t := by
  unfold execRreg at h
  split at h <;> cases h <;> exact .answers _ _ _

theorem writeCtrl_effect {index : U8} (value : U16) (s : State) (hr : regOfIndex index = some .ctrl) :
    CommandEffect s (.wreg index value) (writeCtrl value s) := by
  unfold writeCtrl
  split
  next => exact .answers _ _ _
  next p hp =>
    cases hen : ctrlEn value with
    | true => exact .enables hr hp hen
    | false => exact .disables hr hp hen

theorem execWreg_effect {index : U8} {value : U16} {s t : State} (h : execWreg index value s = .next t) :
    CommandEffect s (.wreg index value) t := by
  unfold execWreg at h
  split at h
  next hr => cases h; exact writeCtrl_effect value s hr
  next hr => cases h; exact .setsMinRetrig hr
  next => cases h; exact .answers _ _ _

/-- The inversion lemma of the host commands: what `exec` answers for one is one of its effects. -/
theorem exec_effect {i : Instr} {s t : State} (hi : i.isCommand = true) (h : exec i s = .next t) :
    CommandEffect s i t := by
  cases i with
  | nop => cases h; exact .answers _ _ _
  | register pin => exact execRegister_effect h
  | release id => exact execRelease_effect h
  | setdelay id delay => exact execSetdelay_effect h
  | getdelay id => exact execGetdelay_effect h
  | getsemi => cases h; exact .answers _ _ _
  | getfreq => cases h; exact .answers _ _ _
  | setfmode mode => exact execSetfmode_effect h
  | wreg index value => exact execWreg_effect h
  | rreg index => exact execRreg_effect h
  | measure => cases h; exact .requestsSample
  | getchan id => exact execGetchan_effect h
  | svcZc => cases hi
  | svcTmr => cases hi

/-- SVC_ZC answers a next state only when it is requested, and then it is the handler's (41_zero_cross.md R124). -/
theorem execSvcZc_eq_next {s t : State} (h : execSvcZc s = .next t) : s.zcPend = true ∧ t = serviceZc s := by
  unfold execSvcZc at h
  split at h
  next hz => cases h; exact ⟨hz, rfl⟩
  next => cases h

/-- SVC_TMR answers a next state only when it is requested and SVC_ZC is not (42_scheduler_timer.md R152). -/
theorem execSvcTmr_eq_next {s t : State} (h : execSvcTmr s = .next t) :
    s.tmrPend = true ∧ s.zcPend = false ∧ t = serviceTmr s := by
  unfold execSvcTmr at h
  split at h
  next hp =>
    obtain ⟨ht, hz⟩ : s.tmrPend = true ∧ s.zcPend = false := by simpa using hp
    cases h
    exact ⟨ht, hz, rfl⟩
  next => cases h

/-- A firing of this epoch is dispatched (42_scheduler_timer.md R152). -/
theorem serviceTmr_live {s : State} (h : s.fireEpoch = s.epoch) :
    serviceTmr s = schedule (fire s.armValue { enterTmr s with tfireCnt := s.tfireCnt + 1#32 }) := if_pos h

/-- A firing of another epoch is dropped and counted (42_scheduler_timer.md R152). -/
theorem serviceTmr_stale {s : State} (h : s.fireEpoch ≠ s.epoch) :
    serviceTmr s = { enterTmr s with tfireCnt := s.tfireCnt + 1#32, staleCnt := s.staleCnt + 1#32 } := if_neg h

end Sys2Proof.Machine

/-! The parameters N, NPINS and LAT_MAX are fixed (00_scope.md R5): each operation keeps them, so each step does. -/
namespace Sys2Proof.Machine

/-- `t` is a state of a block with the parameters of `s` (00_scope.md R5, log 1). -/
structure SameParameters (s t : State) : Prop where
  numSlots : t.numSlots = s.numSlots
  numPins : t.numPins = s.numPins
  latMax : t.latMax = s.latMax

theorem SameParameters.trans {s t u : State} (h : SameParameters s t) (h' : SameParameters t u) :
    SameParameters s u :=
  ⟨h'.numSlots.trans h.numSlots, h'.numPins.trans h.numPins, h'.latMax.trans h.latMax⟩

/-! The operations. -/

theorem respond_sameParameters (st : Status) (d : U32) (s : State) : SameParameters s (respond st d s) := ⟨rfl, rfl, rfl⟩

theorem setSlot_sameParameters (i : Nat) (c : Slot) (s : State) : SameParameters s (setSlot i c s) :=
  ⟨List.length_set, rfl, rfl⟩

theorem quiesce_sameParameters (s : State) : SameParameters s (quiesce s) := by
  rw [quiesce_eq]
  exact ⟨List.length_map _, List.length_map _, rfl⟩

theorem freqSample_sameParameters (x : U32) (s : State) : SameParameters s (freqSample x s) := by
  rw [freqSample_frame]
  exact ⟨rfl, rfl, rfl⟩

theorem fireAll_sameParameters (q : Slot → Bool) (s : State) : SameParameters s (fireAll q s) :=
  ⟨List.length_map _, fireAll_gates_length q s, rfl⟩

theorem fire_sameParameters (v : U16) (s : State) : SameParameters s (fire v s) := by
  rw [fire_eq_fireAll]
  exact fireAll_sameParameters _ s

theorem armLeast_sameParameters (s : State) : SameParameters s (armLeast s) := by
  rw [armLeast_frame]
  exact ⟨rfl, rfl, rfl⟩

theorem schedule_sameParameters (s : State) : SameParameters s (schedule s) := by
  rw [schedule_eq]
  exact (fireAll_sameParameters _ s).trans (armLeast_sameParameters _)

/-! The events. -/

theorem tick_sameParameters (s : State) : SameParameters s (tick s) := by
  rw [tick_frame]
  exact ⟨rfl, rfl, rfl⟩

theorem zcin_sameParameters (v : Bool) (s : State) : SameParameters s (zcin v s) := by
  rw [zcin_frame]
  exact ⟨rfl, rfl, rfl⟩

/-- RESET builds its registry and its lines anew, at the same lengths (70_reset_and_hazards.md R250). -/
theorem resetStep_sameParameters (v : Bool) (s : State) : SameParameters s (resetStep v s) :=
  ⟨List.length_replicate, List.length_replicate, rfl⟩

/-! The services. -/

theorem serviceZc_sameParameters (s : State) : SameParameters s (serviceZc s) := by
  unfold serviceZc
  extract_lets entered sampled lowered
  have hsampled : SameParameters s sampled := by
    have hentered : SameParameters s entered := ⟨rfl, rfl, rfl⟩
    unfold sampled
    split
    next => exact hentered.trans (freqSample_sameParameters _ _)
    next => exact hentered
  have hlowered : SameParameters sampled lowered := ⟨rfl, List.length_map _, rfl⟩
  have hcleared : SameParameters lowered (clearFired { lowered with tEdge := s.zcCapt, zcState := .cycleActive }) :=
    ⟨List.length_map _, rfl, rfl⟩
  exact ((hsampled.trans hlowered).trans hcleared).trans (schedule_sameParameters _)

theorem serviceTmr_sameParameters (s : State) : SameParameters s (serviceTmr s) := by
  have hentered : SameParameters s { enterTmr s with tfireCnt := s.tfireCnt + 1#32 } := ⟨rfl, rfl, rfl⟩
  by_cases hlive : s.fireEpoch = s.epoch
  · rw [serviceTmr_live hlive]
    exact (hentered.trans (fire_sameParameters _ _)).trans (schedule_sameParameters _)
  · rw [serviceTmr_stale hlive]
    exact hentered.trans ⟨rfl, rfl, rfl⟩

/-! The instructions and the step. -/

theorem CommandEffect.sameParameters {s t : State} {i : Instr} (h : CommandEffect s i t) : SameParameters s t := by
  cases h with
  | answers => exact respond_sameParameters _ _ _
  | registers => exact (setSlot_sameParameters _ _ s).trans (respond_sameParameters _ _ _)
  | releases => exact (setSlot_sameParameters _ _ s).trans (respond_sameParameters _ _ _)
  | setsDelay => exact (setSlot_sameParameters _ _ s).trans (respond_sameParameters _ _ _)
  | setsMode => exact ⟨rfl, rfl, rfl⟩
  | requestsSample => exact ⟨rfl, rfl, rfl⟩
  | setsMinRetrig => exact ⟨rfl, rfl, rfl⟩
  | enables => exact ⟨rfl, rfl, rfl⟩
  | @disables _ value p =>
    have hstored : SameParameters s
        { s with en := false, pol := p, pullup := ctrlPullup value, fmonCont := ctrlFmonCont value } := ⟨rfl, rfl, rfl⟩
    exact (hstored.trans (quiesce_sameParameters _)).trans (respond_sameParameters _ _ _)

theorem exec_sameParameters {i : Instr} {s t : State} (h : exec i s = .next t) : SameParameters s t := by
  cases hi : i.isCommand with
  | true => exact (exec_effect hi h).sameParameters
  | false =>
    cases i with
    | svcZc => obtain ⟨-, rfl⟩ := execSvcZc_eq_next h; exact serviceZc_sameParameters s
    | svcTmr => obtain ⟨-, -, rfl⟩ := execSvcTmr_eq_next h; exact serviceTmr_sameParameters s
    | _ => cases hi

theorem fetch_done_sameParameters {s t : State} (h : fetch s = .done t) : SameParameters s t := by
  obtain ⟨rest, hcases⟩ := fetch_done s t h
  have htaken : SameParameters s { s with inputs := rest } := ⟨rfl, rfl, rfl⟩
  obtain rfl | ⟨v, rfl⟩ | ⟨st, rfl⟩ | ⟨v, -, rfl⟩ | rfl := hcases
  · exact htaken.trans (tick_sameParameters _)
  · exact htaken.trans (zcin_sameParameters v _)
  · exact htaken.trans (respond_sameParameters st _ _)
  · exact htaken.trans (resetStep_sameParameters v _)
  · exact htaken

theorem step_sameParameters {s t : State} (h : step s = .next t) : SameParameters s t := by
  obtain ⟨i, u, -, rfl, hexec, -⟩ | hdone := step_cases s t h
  · have htaken : SameParameters s { s with inputs := (select s).rest } := ⟨rfl, rfl, rfl⟩
    exact htaken.trans (exec_sameParameters hexec)
  · exact fetch_done_sameParameters hdone

/-- Settles O44: every operation a step is made of keeps the lengths of the two lists and the latency bound. -/
theorem parametersNeverChange : Obligations.ParametersNeverChange := fun _ _ h =>
  have hsame := step_sameParameters h
  ⟨hsame.numSlots, hsame.numPins, hsame.latMax⟩

end Sys2Proof.Machine

/-! Everything a step can do, said once (00_scope.md R10, R11). -/
namespace Sys2Proof.Machine

/-- The state that the selected step runs in: `s` with the input of that step taken (log 2). -/
def State.taken (s : State) : State := { s with inputs := (select s).rest }

/-- The states that a step can answer, with the guard of each. -/
inductive StepEffect (s : State) : State → Prop where
  /-- 42_scheduler_timer.md R140 -/
  | ticks (hk : (select s).kind = .tick) (hen : tickEnabled s = true) : StepEffect s (tick s.taken)
  /-- 41_zero_cross.md R120 -/
  | takesLevel {v : Bool} (hk : (select s).kind = .zcin v) : StepEffect s (zcin v s.taken)
  /-- 41_zero_cross.md R124 -/
  | servesZc (hk : (select s).kind = .service .svcZc) (hf : fetch s = .run .svcZc s.taken) (hz : s.zcPend = true) :
      StepEffect s (serviceZc s.taken)
  /-- 42_scheduler_timer.md R152 -/
  | servesTmr (hk : (select s).kind = .service .svcTmr) (ht : s.tmrPend = true) : StepEffect s (serviceTmr s.taken)
  /-- 30_encoding.md R80 -/
  | obeys {w : U32} {i : Instr} {t : State} (hk : (select s).kind = .cmd w) (hf : fetch s = .run i s.taken)
      (heff : CommandEffect s.taken i t) : StepEffect s t
  /-- 30_encoding.md R85 -/
  | rejects {w : U32} (hk : (select s).kind = .cmd w) (st : Status) : StepEffect s (fail st s.taken)
  /-- 70_reset_and_hazards.md R250 -/
  | resets {v : Bool} (hk : (select s).kind = .reset v) : StepEffect s (resetStep v s.taken)
  /-- log 5 -/
  | idles (hk : (select s).kind = .nothing) : StepEffect s s.taken

theorem service_effect {s t : State} {i : Instr} (hk : (select s).kind = .service i) (h : exec i s.taken = .next t) :
    StepEffect s t := by
  have hf : fetch s = .run i s.taken := by
    rw [fetch_eq, hk]
    rfl
  obtain ⟨rfl, hz⟩ | ⟨rfl, -, ht⟩ := (arbiter_eq_some s i).1 (arbiter_of_select s i hk)
  · obtain ⟨-, rfl⟩ := execSvcZc_eq_next h
    exact .servesZc hk hf hz
  · obtain ⟨-, -, rfl⟩ := execSvcTmr_eq_next h
    exact .servesTmr hk ht

theorem fetch_of_select_command {s : State} {w : U32} {i : Instr} {rest : List Event}
    (h : select s = ⟨.cmd w, rest⟩) (hd : decode w = .command i) : fetch s = .run i { s with inputs := rest } := by
  rw [fetch_of_select h]
  simp only [perform, hd]

theorem word_effect {s t : State} {w : U32} (hk : (select s).kind = .cmd w) (h : step s = .next t) :
    StepEffect s t := by
  have hsel : select s = ⟨.cmd w, (select s).rest⟩ := by rw [← hk]
  cases hd : decode w with
  | command i =>
    have hf : fetch s = .run i s.taken := fetch_of_select_command hsel hd
    rw [step_of_fetch_run hf] at h
    exact .obeys hk hf (exec_effect (isCommand_of_decode w i hd) h)
  | rejected e =>
    cases (step_of_select_rejected hsel hd).symm.trans h
    exact .rejects hk _

/-- The inversion lemma of the step: what it answers is one of its effects. -/
theorem step_effect {s t : State} (h : step s = .next t) : StepEffect s t := by
  have hsel : ∀ k, (select s).kind = k → select s = ⟨k, (select s).rest⟩ := fun k hk => by rw [← hk]
  cases hk : (select s).kind with
  | tick =>
    cases (step_of_select_tick (hsel _ hk)).symm.trans h
    exact .ticks hk (tickEnabled_of_select s hk)
  | zcin v =>
    cases (step_of_select_zcin (hsel _ hk)).symm.trans h
    exact .takesLevel hk
  | service i => exact service_effect hk ((step_of_select_service (hsel _ hk)).symm.trans h)
  | cmd w => exact word_effect hk h
  | reset v =>
    cases (step_of_select_reset (hsel _ hk)).symm.trans h
    exact .resets hk
  | nothing =>
    cases (step_of_select_nothing (hsel _ hk)).symm.trans h
    exact .idles hk

end Sys2Proof.Machine

/-! How each event and service behaves, one rule per case of its definition. -/
namespace Sys2Proof.Machine

/-! TICK (42_scheduler_timer.md R140). -/

theorem tick_of_disarmed {s : State} (h : s.tmrArmed = false) : tick s = advanceTime s := by
  simp [tick, countDown, h]

/-- The TICK that ends the countdown. -/
theorem tick_of_last {s : State} (h : s.tmrArmed = true) (hc : s.tmrCnt = 1#16) :
    tick s = expire { advanceTime s with tmrCnt := 0#16 } := by
  simp [tick, countDown, h, hc]

theorem tick_of_running {s : State} (h : s.tmrArmed = true) (hc : s.tmrCnt ≠ 1#16) :
    tick s = { advanceTime s with tmrCnt := s.tmrCnt - 1#16 } := by
  have hne : s.tmrCnt - 1#16 ≠ 0#16 := by bv_omega
  simp [tick, countDown, h, hne]

/-! ZCIN (41_zero_cross.md R120 to R123). -/

/-- A change of the level is remembered, and latched if it qualifies; nothing else can happen. -/
theorem zcin_cases (v : Bool) (s : State) :
    zcin v s = { s with zcPrev := v } ∨ s.en = true ∧ zcin v s = latchEdge { s with zcPrev := v } := by
  unfold zcin
  split
  next hv => exact .inl (by rw [hv])
  next =>
    split
    next hq =>
      have hen : s.en = true := by
        unfold edgeQualifies at hq
        simp only [Bool.and_eq_true] at hq
        exact hq.1.1
      exact .inr ⟨hen, rfl⟩
    next => exact .inl rfl

/-! SVC_ZC (41_zero_cross.md R124), as entry, sample, new half-cycle, Schedule. -/

/-- The monitor's part of SVC_ZC (43_frequency.md R174). -/
def sampleAtEdge (s : State) : State := if samplesNow s then freqSample (s.zcCapt - s.tEdge) s else s

/-- The part of SVC_ZC that opens the half-cycle of the captured edge. -/
def startHalfCycle (s : State) : State :=
  clearFired { deassertAll { s with epoch := s.epoch + 1#32 } with tEdge := s.zcCapt, zcState := .cycleActive }

theorem sampleAtEdge_frame (s : State) :
    sampleAtEdge s = { s with
      semiMeas := (sampleAtEdge s).semiMeas, semiValid := (sampleAtEdge s).semiValid
      fmonReq := (sampleAtEdge s).fmonReq, oorCnt := (sampleAtEdge s).oorCnt } := by
  unfold sampleAtEdge
  split
  next => exact freqSample_frame _ s
  next => rfl

theorem serviceZc_eq (s : State) : serviceZc s = schedule (startHalfCycle (sampleAtEdge (enterZc s))) := by
  have hcapt : (sampleAtEdge (enterZc s)).zcCapt = s.zcCapt := by rw [sampleAtEdge_frame]; rfl
  have hepoch : (sampleAtEdge (enterZc s)).epoch = s.epoch := by rw [sampleAtEdge_frame]; rfl
  calc serviceZc s
      = schedule (clearFired { deassertAll { sampleAtEdge (enterZc s) with epoch := s.epoch + 1#32 } with
          tEdge := s.zcCapt, zcState := .cycleActive }) := rfl
    _ = schedule (startHalfCycle (sampleAtEdge (enterZc s))) := by simp only [startHalfCycle, hcapt, hepoch]

/-! Schedule (42_scheduler_timer.md R150): what it keeps, and how it leaves the timer. -/

@[simp] theorem schedule_en (s : State) : (schedule s).en = s.en := by rw [schedule_frame]
@[simp] theorem schedule_epoch (s : State) : (schedule s).epoch = s.epoch := by rw [schedule_frame]
@[simp] theorem schedule_zcState (s : State) : (schedule s).zcState = s.zcState := by rw [schedule_frame]
@[simp] theorem schedule_zcPend (s : State) : (schedule s).zcPend = s.zcPend := by rw [schedule_frame]
@[simp] theorem schedule_zcWait (s : State) : (schedule s).zcWait = s.zcWait := by rw [schedule_frame]
@[simp] theorem schedule_tmrPend (s : State) : (schedule s).tmrPend = s.tmrPend := by rw [schedule_frame]
@[simp] theorem schedule_tmrWait (s : State) : (schedule s).tmrWait = s.tmrWait := by rw [schedule_frame]
@[simp] theorem schedule_latMax (s : State) : (schedule s).latMax = s.latMax := by rw [schedule_frame]
@[simp] theorem schedule_chans (s : State) : (schedule s).chans = (fireAll (due s) s).chans := by rw [schedule_frame]
@[simp] theorem schedule_gates (s : State) : (schedule s).gates = (fireAll (due s) s).gates := by rw [schedule_frame]

theorem not_due_of_mem_fireAll {s : State} {c : Slot} (hc : c ∈ (fireAll (due s) s).chans) :
    due (fireAll (due s) s) c = false := by
  obtain ⟨d, -, rfl⟩ := mem_fireAll _ _ _ hc
  by_cases hd : due s d = true
  · rw [if_pos hd, due, eligible_fired]
    rfl
  · rw [if_neg hd]
    exact Bool.eq_false_iff.2 hd

/-- Schedule ends by a cancel, or by arming a count that ends when the elapsed time is the armed delay, which is not
never and has not elapsed (42_scheduler_timer.md R150, R151). -/
theorem schedule_timer (s : State) :
    schedule s = cancel (fireAll (due s) s) ∨
      ∃ cnt m, schedule s = arm cnt m (fireAll (due s) s) ∧ m ≠ 0xFFFF#16 ∧ 1 ≤ cnt.toNat ∧ cnt.toNat ≤ 0xFFFE ∧
        s.now + cnt.setWidth 32 = s.tEdge + m.setWidth 32 := by
  rw [schedule_eq]
  unfold armLeast
  split
  next => exact .inl rfl
  next m hm =>
    obtain ⟨⟨c, hc, helig, rfl⟩, -⟩ := (leastEligible_eq_some _ m).1 hm
    obtain ⟨-, -, hnever, -⟩ := (eligible_iff _ c).1 helig
    have hnotDue := not_due_of_mem_fireAll hc
    rw [due, helig, Bool.true_and, decide_eq_false_iff_not] at hnotDue
    have hlater : ¬ c.delay.setWidth 32 ≤ s.now - s.tEdge := hnotDue
    refine .inr ⟨_, c.delay, rfl, hnever, ?_⟩
    change 1 ≤ ((c.delay.setWidth 32 - (s.now - s.tEdge)).setWidth 16).toNat ∧
      ((c.delay.setWidth 32 - (s.now - s.tEdge)).setWidth 16).toNat ≤ 0xFFFE ∧
      s.now + ((c.delay.setWidth 32 - (s.now - s.tEdge)).setWidth 16).setWidth 32 = s.tEdge + c.delay.setWidth 32
    generalize hx : s.now - s.tEdge = x at hlater ⊢
    refine ⟨by bv_omega, by bv_omega, by bv_omega⟩

end Sys2Proof.Machine

/-! What each operation does to the slots of the registry (10_state.md R22, R24, R25). -/
namespace Sys2Proof.Machine

/-- The two registries agree but for the FIRED bits. -/
def SameRegistry (s t : State) : Prop := (clearFired t).chans = (clearFired s).chans

theorem SameRegistry.trans {s t u : State} (h : SameRegistry s t) (h' : SameRegistry t u) : SameRegistry s u :=
  Eq.trans h' h

theorem SameRegistry.of_chans_eq {s t : State} (h : t.chans = s.chans) : SameRegistry s t := by
  rw [SameRegistry, clearFired_chans, clearFired_chans, h]

theorem clearFired_sameRegistry (s : State) : SameRegistry s (clearFired s) := by
  simp [SameRegistry, Function.comp_def]

theorem fireAll_sameRegistry (q : Slot → Bool) (s : State) : SameRegistry s (fireAll q s) := by
  simp only [SameRegistry, clearFired_chans, fireAll, List.map_map]
  refine List.map_congr_left fun c _ => ?_
  cases hq : q c <;> simp [hq]

theorem fire_sameRegistry (v : U16) (s : State) : SameRegistry s (fire v s) := by
  rw [fire_eq_fireAll]
  exact fireAll_sameRegistry _ s

theorem schedule_sameRegistry (s : State) : SameRegistry s (schedule s) :=
  (fireAll_sameRegistry (due s) s).trans (.of_chans_eq (schedule_chans s))

theorem quiesce_chans (s : State) : (quiesce s).chans = (clearFired s).chans := by
  rw [quiesce_eq]
  rfl

theorem quiesce_sameRegistry (s : State) : SameRegistry s (quiesce s) :=
  (clearFired_sameRegistry s).trans (.of_chans_eq (quiesce_chans s))

theorem startHalfCycle_chans (s : State) : (startHalfCycle s).chans = (clearFired s).chans := rfl

theorem startHalfCycle_sameRegistry (s : State) : SameRegistry s (startHalfCycle s) :=
  (clearFired_sameRegistry s).trans (.of_chans_eq (startHalfCycle_chans s))

theorem serviceZc_sameRegistry (s : State) : SameRegistry s (serviceZc s) := by
  have hsampled : SameRegistry s (sampleAtEdge (enterZc s)) := .of_chans_eq (by rw [sampleAtEdge_frame]; rfl)
  rw [serviceZc_eq]
  exact (hsampled.trans (startHalfCycle_sameRegistry _)).trans (schedule_sameRegistry _)

theorem serviceTmr_sameRegistry (s : State) : SameRegistry s (serviceTmr s) := by
  by_cases hlive : s.fireEpoch = s.epoch
  · rw [serviceTmr_live hlive]
    have hentered : SameRegistry s { enterTmr s with tfireCnt := s.tfireCnt + 1#32 } := .of_chans_eq rfl
    exact (hentered.trans (fire_sameRegistry _ _)).trans (schedule_sameRegistry _)
  · rw [serviceTmr_stale hlive]
    exact .of_chans_eq rfl

/-- Slot by slot: all but FIRED is kept. -/
theorem SameRegistry.slot {s t : State} {k : Nat} {c d : Slot} (h : SameRegistry s t) (hc : s.chans[k]? = some c)
    (hd : t.chans[k]? = some d) : d.pin = c.pin ∧ d.active = c.active := by
  have hk : (clearFired t).chans[k]? = (clearFired s).chans[k]? := congrArg (·[k]?) h
  obtain ⟨hpin, -, hactive⟩ : d.pin = c.pin ∧ d.delay = c.delay ∧ d.active = c.active := by simpa [hc, hd] using hk
  exact ⟨hpin, hactive⟩

/-- Every slot is a slot of the other registry, but for FIRED. -/
theorem SameRegistry.exists_mem {s t : State} {d : Slot} (h : SameRegistry s t) (hd : d ∈ t.chans) :
    ∃ c ∈ s.chans, d.pin = c.pin ∧ d.active = c.active := by
  obtain ⟨k, hk⟩ := List.mem_iff_getElem?.1 hd
  have hlen : t.chans.length = s.chans.length := by simpa using congrArg List.length h
  have hlt : k < s.chans.length := hlen ▸ (List.getElem?_eq_some_iff.1 hk).1
  exact ⟨_, List.getElem_mem hlt, h.slot (List.getElem?_eq_getElem hlt) hk⟩

/-! FIRED, once set. -/

theorem fireAll_keeps_fired {q : Slot → Bool} {s : State} {k : Nat} {c d : Slot} (hc : s.chans[k]? = some c)
    (hd : (fireAll q s).chans[k]? = some d) (hfired : c.fired = true) : d.fired = true := by
  simp only [fireAll, List.getElem?_map, hc, Option.map_some, Option.some.injEq] at hd
  subst hd
  split
  · rfl
  · exact hfired

/-- SVC_TMR clears no FIRED bit (10_state.md R25). -/
theorem serviceTmr_keeps_fired {s : State} {k : Nat} {c d : Slot} (hc : s.chans[k]? = some c)
    (hd : (serviceTmr s).chans[k]? = some d) (hfired : c.fired = true) : d.fired = true := by
  by_cases hlive : s.fireEpoch = s.epoch
  · rw [serviceTmr_live hlive, schedule_fire, armLeast_frame] at hd
    exact fireAll_keeps_fired (s := { enterTmr s with tfireCnt := s.tfireCnt + 1#32 }) hc hd hfired
  · rw [serviceTmr_stale hlive] at hd
    obtain rfl : c = d := Option.some.inj (hc.symm.trans hd)
    exact hfired

/-! Writing one slot (10_state.md R21). -/

theorem getElem?_setSlot {i k : Nat} {x d : Slot} {s : State} (hd : (setSlot i x s).chans[k]? = some d) :
    (k = i ∧ d = x) ∨ s.chans[k]? = some d := by
  rw [setSlot_chans, List.getElem?_set] at hd
  split at hd
  next hik =>
    split at hd
    next => exact .inl ⟨hik.symm, (Option.some.inj hd).symm⟩
    next => cases hd
  next => exact .inr hd

theorem forall_mem_setSlot {P : Slot → Prop} {i : Nat} {x : Slot} {s : State} (h : ∀ c ∈ s.chans, P c) (hx : P x) :
    ∀ c ∈ (setSlot i x s).chans, P c := by
  intro c hc
  obtain hmem | rfl := List.mem_or_eq_of_mem_set hc
  · exact h c hmem
  · exact hx

theorem mem_of_activeSlot {id : U8} {c : Slot} {s : State} (hc : activeSlot id s = some c) : c ∈ s.chans :=
  List.mem_of_getElem? ((activeSlot_eq_some id s c).1 hc).1

end Sys2Proof.Machine

/-! What the steps leave of the half-cycle: the time, the synchronizer, the timer, the requests and the lines
(60_exceptions.md R225). -/
namespace Sys2Proof.Machine

/-- `t` has the time, the half-cycle, the timer, the requests and the lines of `s`. -/
structure SameCycle (s t : State) : Prop where
  now : t.now = s.now
  tEdge : t.tEdge = s.tEdge
  epoch : t.epoch = s.epoch
  zcState : t.zcState = s.zcState
  zcPend : t.zcPend = s.zcPend
  zcWait : t.zcWait = s.zcWait
  tmrArmed : t.tmrArmed = s.tmrArmed
  tmrCnt : t.tmrCnt = s.tmrCnt
  armValue : t.armValue = s.armValue
  armEpoch : t.armEpoch = s.armEpoch
  tmrPend : t.tmrPend = s.tmrPend
  tmrWait : t.tmrWait = s.tmrWait
  fireEpoch : t.fireEpoch = s.fireEpoch
  gates : t.gates = s.gates

/-- A WREG of CTRL with `EN = 0` (44_config_regs.md R192). -/
def IsQuiesce (i : Instr) : Prop := ∃ value : U16, i = .wreg 0#8 value ∧ value.toNat % 2 = 0

theorem regOfIndex_eq_ctrl : ∀ index : U8, regOfIndex index = some .ctrl → index = 0#8 := by decide

theorem ctrlEn_eq_false_iff (value : U16) : ctrlEn value = false ↔ value.toNat % 2 = 0 := by
  rw [ctrlEn, getLsbD_eq_div, decide_eq_false_iff_not]
  omega

/-- Only a WREG of CTRL with `EN = 0` disables the block or touches the half-cycle, and it is a quiesce
(44_config_regs.md R190, R192). -/
theorem CommandEffect.sameCycle_or_quiesces {s t : State} {i : Instr} (h : CommandEffect s i t) :
    (SameCycle s t ∧ (t.en = false → s.en = false)) ∨
      (IsQuiesce i ∧ ∃ p pullup fmonCont, t =
        respond .ok 0#32 (quiesce { s with en := false, pol := p, pullup := pullup, fmonCont := fmonCont })) := by
  cases h with
  | enables => exact .inl ⟨⟨rfl, rfl, rfl, rfl, rfl, rfl, rfl, rfl, rfl, rfl, rfl, rfl, rfl, rfl⟩, nofun⟩
  | disables hr _ hen =>
    rw [regOfIndex_eq_ctrl _ hr]
    exact .inr ⟨⟨_, rfl, (ctrlEn_eq_false_iff _).1 hen⟩, _, _, _, rfl⟩
  | _ => exact .inl ⟨⟨rfl, rfl, rfl, rfl, rfl, rfl, rfl, rfl, rfl, rfl, rfl, rfl, rfl, rfl⟩, id⟩

/-! A line that is high stays high through a dispatch (42_scheduler_timer.md R144). -/

theorem fireAll_keeps_high {q : Slot → Bool} {s : State} {p : Nat} (h : s.gates[p]? = some true) :
    (fireAll q s).gates[p]? = some true :=
  (fireAll_gates q s p (List.getElem?_eq_some_iff.1 h).1).2 (.inl h)

theorem serviceTmr_keeps_high {s : State} {p : Nat} (h : s.gates[p]? = some true) :
    (serviceTmr s).gates[p]? = some true := by
  by_cases hlive : s.fireEpoch = s.epoch
  · rw [serviceTmr_live hlive, schedule_fire, armLeast_frame]
    exact fireAll_keeps_high (s := { enterTmr s with tfireCnt := s.tfireCnt + 1#32 }) h
  · rw [serviceTmr_stale hlive]
    exact h

end Sys2Proof.Machine

/-! The invariants of 10_state.md R48: each operation keeps them, so each step does. -/
namespace Sys2Proof.Machine

theorem SameParameters.sizesInRange {s t : State} (h : SameParameters s t) (hs : s.SizesInRange) :
    t.SizesInRange := by
  rw [State.SizesInRange, h.numSlots, h.numPins]
  exact hs

/-- R48 (e) speaks of PIN and ACTIVE alone. -/
theorem SameRegistry.pinsInRange {s t : State} (h : SameRegistry s t) (hp : SameParameters s t)
    (hs : s.PinsInRange) : t.PinsInRange := by
  intro d hd hactive
  obtain ⟨c, hc, hpin, hact⟩ := h.exists_mem hd
  rw [hpin, hp.numPins]
  exact hs c hc (hact ▸ hactive)

/-- An enabled block in CycleActive: R48 (c) and (d) say nothing of it. -/
theorem inv_of_cycleActive {t : State} (hen : t.en = true) (hactive : t.zcState = .cycleActive)
    (hsizes : t.SizesInRange) (hcount : t.CountInRange) (htime : t.CountdownOnTime) (hpins : t.PinsInRange)
    (hlat : t.LatencyKept) : t.Inv := by
  refine ⟨hsizes, hcount, htime, fun hdis => ?_, fun hidle => ?_, hpins, hlat⟩
  · rw [hen] at hdis
    cases hdis
  · rw [hactive] at hidle
    cases hidle

/-! The timer requests and the edge requests of a state that has the invariants. -/

theorem en_of_zcPend {s : State} (h : s.QuietWhenDisabled) (hz : s.zcPend = true) : s.en = true := by
  by_contra hen
  rw [(h (Bool.eq_false_iff.2 hen)).1] at hz
  cases hz

/-- Timer activity means that the block is enabled and in CycleActive (R48 (c), (d)). -/
theorem cycleActive_of_timer {s : State} (hdis : s.QuietWhenDisabled) (hidle : s.QuietWhenIdle)
    (h : s.tmrArmed = true ∨ s.tmrPend = true) : s.en = true ∧ s.zcState = .cycleActive := by
  constructor
  · by_contra hen
    obtain ⟨-, hpend, harmed, -⟩ := hdis (Bool.eq_false_iff.2 hen)
    simp [hpend, harmed] at h
  · cases hstate : s.zcState with
    | idle =>
      obtain ⟨harmed, hpend, -⟩ := hidle hstate
      simp [hpend, harmed] at h
    | cycleActive => rfl

/-! Schedule (42_scheduler_timer.md R150) leaves R48 (a) and (b) true, whatever the state before. -/

theorem schedule_countInRange (s : State) : (schedule s).CountInRange := by
  obtain heq | ⟨cnt, m, heq, -, hlo, hhi, -⟩ := schedule_timer s
  · rw [heq]
    exact ⟨nofun, fun _ => rfl⟩
  · rw [heq]
    exact ⟨fun _ => ⟨hlo, hhi⟩, nofun⟩

theorem schedule_countdownOnTime (s : State) : (schedule s).CountdownOnTime := by
  obtain heq | ⟨cnt, m, heq, hne, -, -, hend⟩ := schedule_timer s
  · rw [heq]
    exact nofun
  · rw [heq]
    exact fun _ => ⟨rfl, hne, hend⟩

/-! Reset. -/

/-- R48 at the reset values of R49. -/
theorem resetWith_inv {cfg : Config} (h : cfg.InRange) : (State.resetWith cfg).Inv := by
  have hgates : ∀ g ∈ (State.resetWith cfg).gates, g = false := fun g hg => List.eq_of_mem_replicate hg
  have hslots : ∀ c ∈ (State.resetWith cfg).chans, c = Slot.reset := fun c hc => List.eq_of_mem_replicate hc
  have hlow : (State.resetWith cfg).OutputsLow := ⟨hgates, fun c hc => by rw [hslots c hc]; rfl⟩
  refine ⟨?sizes, ⟨nofun, fun _ => rfl⟩, nofun, fun _ => ⟨rfl, rfl, rfl, rfl, hlow⟩, fun _ => ⟨rfl, rfl, hlow⟩, ?pins,
    ⟨nofun, fun _ => rfl, nofun, fun _ => rfl⟩⟩
  case sizes =>
    have hn : (State.resetWith cfg).numSlots = cfg.n := List.length_replicate
    have hpins : (State.resetWith cfg).numPins = cfg.npins := List.length_replicate
    rw [State.SizesInRange, hn, hpins]
    exact h
  case pins =>
    intro c hc hactive
    rw [hslots c hc] at hactive
    cases hactive

/-- Settles O42: `State.reset` is `resetWith` of parameters in range. -/
theorem invariantHoldsAfterReset : Obligations.InvariantHoldsAfterReset :=
  ⟨fun _ h => resetWith_inv h, resetWith_inv (by decide)⟩

/-- The inputs still to come are no part of the invariants. -/
theorem resetStep_inv {s : State} (v : Bool) (hs : s.SizesInRange) : (resetStep v s).Inv :=
  resetWith_inv (cfg := { n := s.numSlots, npins := s.numPins, latMax := s.latMax, zcInit := v }) hs

/-! TICK (42_scheduler_timer.md R140). -/

theorem advanceTime_latencyKept {s : State} (hs : s.LatencyKept) (hen : tickEnabled s = true) :
    (advanceTime s).LatencyKept := by
  obtain ⟨hzc, hzc0, htmr, htmr0⟩ := hs
  simp only [tickEnabled, Bool.and_eq_true, Bool.or_eq_true, Bool.not_eq_true', decide_eq_true_eq] at hen
  simp only [State.LatencyKept, advanceTime_zcPend, advanceTime_tmrPend, advanceTime_zcWait, advanceTime_tmrWait,
    advanceTime_latMax]
  refine ⟨fun h => ?_, fun h => by simp [h], fun h => ?_, fun h => by simp [h]⟩
  · simpa [h] using hen.1
  · simpa [h] using hen.2

/-- An expiry starts the wait of a new request and goes on with that of an older one (log 7). -/
theorem expire_latencyKept {s : State} (hs : s.LatencyKept) : (expire s).LatencyKept := by
  obtain ⟨hzc, hzc0, htmr, htmr0⟩ := hs
  refine ⟨hzc, hzc0, fun _ => ?_, nofun⟩
  rw [expire_tmrWait, expire_latMax]
  cases hp : s.tmrPend with
  | true => exact htmr hp
  | false => exact (htmr0 hp).trans_le (Nat.zero_le _)

theorem tick_inv {s : State} (hs : s.Inv) (hen : tickEnabled s = true) : (tick s).Inv := by
  have hsizes := (tick_sameParameters s).sizesInRange hs.1
  obtain ⟨-, hcount, htime, hdis, hidle, hpins, hlat⟩ := hs
  have hlat' := advanceTime_latencyKept hlat hen
  cases harmed : s.tmrArmed with
  | false =>
    rw [tick_of_disarmed harmed] at hsizes ⊢
    have hnot : (advanceTime s).tmrArmed ≠ true := by rw [advanceTime_tmrArmed, harmed]; exact nofun
    exact ⟨hsizes, hcount, fun h => absurd h hnot, hdis, hidle, hpins, hlat'⟩
  | true =>
    obtain ⟨hrun, hactive⟩ := cycleActive_of_timer hdis hidle (.inl harmed)
    obtain ⟨hlo, hhi⟩ := hcount.1 harmed
    obtain ⟨hepoch, hne, hend⟩ := htime harmed
    by_cases hlast : s.tmrCnt = 1#16
    · rw [tick_of_last harmed hlast] at hsizes ⊢
      exact inv_of_cycleActive hrun hactive hsizes ⟨nofun, fun _ => rfl⟩ nofun hpins (expire_latencyKept hlat')
    · rw [tick_of_running harmed hlast] at hsizes ⊢
      have hcount' : 1 ≤ (s.tmrCnt - 1#16).toNat ∧ (s.tmrCnt - 1#16).toNat ≤ 0xFFFE := by bv_omega
      have hend' : s.now + 1#32 + (s.tmrCnt - 1#16).setWidth 32 = s.tEdge + s.armValue.setWidth 32 := by
        rw [← hend]
        bv_omega
      have hnot : s.tmrArmed ≠ false := by rw [harmed]; exact nofun
      exact inv_of_cycleActive hrun hactive hsizes ⟨fun _ => hcount', fun h => absurd h hnot⟩
        (fun _ => ⟨hepoch, hne, hend'⟩) hpins hlat'

/-! ZCIN (41_zero_cross.md R120 to R123). -/

theorem latchEdge_latencyKept {s : State} (hs : s.LatencyKept) : (latchEdge s).LatencyKept := by
  obtain ⟨hzc, hzc0, htmr, htmr0⟩ := hs
  refine ⟨fun _ => ?_, nofun, htmr, htmr0⟩
  rw [latchEdge_zcWait, latchEdge_latMax]
  cases hp : s.zcPend with
  | true => exact hzc hp
  | false => exact Nat.zero_le _

theorem zcin_inv {s : State} (v : Bool) (hs : s.Inv) : (zcin v s).Inv := by
  obtain heq | ⟨hen, heq⟩ := zcin_cases v s
  · rw [heq]
    exact hs
  · obtain ⟨hsizes, hcount, htime, -, hidle, hpins, hlat⟩ := hs
    rw [heq]
    have hnot : (latchEdge { s with zcPrev := v }).en ≠ false := by rw [latchEdge_en, hen]; exact nofun
    exact ⟨hsizes, hcount, htime, fun h => absurd h hnot, hidle, hpins, latchEdge_latencyKept hlat⟩

/-! The services. -/

theorem serviceZc_inv {s : State} (hs : s.Inv) (hz : s.zcPend = true) : (serviceZc s).Inv := by
  have hp := serviceZc_sameParameters s
  have hr := serviceZc_sameRegistry s
  obtain ⟨hsizes, -, -, hdis, -, hpins, -, -, htmr, htmr0⟩ := hs
  have henabled : s.en = true := en_of_zcPend hdis hz
  have hen : (serviceZc s).en = true := by
    rw [serviceZc_eq, schedule_en, sampleAtEdge_frame]
    exact henabled
  have hlat : (serviceZc s).LatencyKept := by
    simp only [State.LatencyKept, serviceZc_eq, schedule_zcPend, schedule_zcWait, schedule_tmrPend, schedule_tmrWait,
      schedule_latMax]
    rw [sampleAtEdge_frame]
    exact ⟨nofun, fun _ => rfl, htmr, htmr0⟩
  refine inv_of_cycleActive hen ?_ (hp.sizesInRange hsizes) ?_ ?_ (hr.pinsInRange hp hpins) hlat <;> rw [serviceZc_eq]
  · rw [schedule_zcState]
    rfl
  · exact schedule_countInRange _
  · exact schedule_countdownOnTime _

theorem serviceTmr_inv {s : State} (hs : s.Inv) (ht : s.tmrPend = true) : (serviceTmr s).Inv := by
  have hp := serviceTmr_sameParameters s
  have hr := serviceTmr_sameRegistry s
  obtain ⟨hsizes, hcount, htime, hdis, hidle, hpins, hzc, hzc0, -, -⟩ := hs
  obtain ⟨hen, hactive⟩ := cycleActive_of_timer hdis hidle (.inr ht)
  have hsizes' := hp.sizesInRange hsizes
  have hpins' := hr.pinsInRange hp hpins
  by_cases hlive : s.fireEpoch = s.epoch
  · rw [serviceTmr_live hlive, fire_eq_fireAll] at hsizes' hpins' ⊢
    refine inv_of_cycleActive ?_ ?_ hsizes' (schedule_countInRange _) (schedule_countdownOnTime _) hpins' ?_
    · rw [schedule_en]
      exact hen
    · rw [schedule_zcState]
      exact hactive
    · simp only [State.LatencyKept, schedule_zcPend, schedule_zcWait, schedule_tmrPend, schedule_tmrWait,
        schedule_latMax]
      exact ⟨hzc, hzc0, nofun, fun _ => rfl⟩
  · rw [serviceTmr_stale hlive] at hsizes' hpins' ⊢
    exact inv_of_cycleActive hen hactive hsizes' hcount htime hpins' ⟨hzc, hzc0, nofun, fun _ => rfl⟩

/-! The host commands. -/

/-- A quiesce of a disabled block is what R48 (c) and (d) ask for (44_config_regs.md R192). -/
theorem quiesce_inv {s : State} (hsizes : s.SizesInRange) (hpins : s.PinsInRange) : (quiesce s).Inv := by
  have hp := quiesce_sameParameters s
  have hsizes' := hp.sizesInRange hsizes
  have hpins' := (quiesce_sameRegistry s).pinsInRange hp hpins
  have hlow : (quiesce s).OutputsLow := by
    rw [quiesce_eq]
    refine ⟨fun g hg => ?_, fun c hc => ?_⟩
    · obtain ⟨_, -, rfl⟩ := List.mem_map.1 hg
      rfl
    · obtain ⟨_, -, rfl⟩ := List.mem_map.1 hc
      rfl
  rw [quiesce_eq] at hsizes' hpins' hlow ⊢
  exact ⟨hsizes', ⟨nofun, fun _ => rfl⟩, nofun, fun _ => ⟨rfl, rfl, rfl, rfl, hlow⟩, fun _ => ⟨rfl, rfl, hlow⟩, hpins',
    ⟨nofun, fun _ => rfl, nofun, fun _ => rfl⟩⟩

/-- The invariants of a state with the same half-cycle, from what it does to EN and the slots. -/
theorem SameCycle.inv {s t : State} (h : SameCycle s t) (hp : SameParameters s t) (hs : s.Inv)
    (hen : t.en = false → s.en = false)
    (hfired : (∀ c ∈ s.chans, c.fired = false) → ∀ c ∈ t.chans, c.fired = false) (hpins : t.PinsInRange) :
    t.Inv := by
  obtain ⟨hsizes, hcount, htime, hdis, hidle, -, hlat⟩ := hs
  have hlow : s.OutputsLow → t.OutputsLow := by
    rintro ⟨hgates, hslots⟩
    exact ⟨h.gates ▸ hgates, hfired hslots⟩
  refine ⟨hp.sizesInRange hsizes, ?count, ?time, fun hd => ?disabled, fun hi => ?idle, hpins, ?latency⟩
  case count => simpa only [State.CountInRange, h.tmrArmed, h.tmrCnt] using hcount
  case time =>
    simpa only [State.CountdownOnTime, h.tmrArmed, h.tmrCnt, h.armEpoch, h.armValue, h.epoch, h.now, h.tEdge] using htime
  case disabled =>
    obtain ⟨hz, ht, ha, hstate, ho⟩ := hdis (hen hd)
    rw [h.zcPend, h.tmrPend, h.tmrArmed, h.zcState]
    exact ⟨hz, ht, ha, hstate, hlow ho⟩
  case idle =>
    obtain ⟨ha, ht, ho⟩ := hidle (h.zcState ▸ hi)
    rw [h.tmrArmed, h.tmrPend]
    exact ⟨ha, ht, hlow ho⟩
  case latency =>
    simpa only [State.LatencyKept, h.zcPend, h.zcWait, h.tmrPend, h.tmrWait, hp.latMax] using hlat

/-- No host command sets a FIRED bit (60_exceptions.md R225). -/
theorem CommandEffect.fired_low {s t : State} {i : Instr} (h : CommandEffect s i t)
    (hs : ∀ c ∈ s.chans, c.fired = false) : ∀ c ∈ t.chans, c.fired = false := by
  cases h with
  | registers => exact forall_mem_setSlot hs rfl
  | releases hc =>
    have hslot := hs _ (mem_of_activeSlot hc)
    exact forall_mem_setSlot hs hslot
  | setsDelay hc =>
    have hslot := hs _ (mem_of_activeSlot hc)
    exact forall_mem_setSlot hs hslot
  | disables =>
    rw [respond_chans, quiesce_chans]
    intro c hc
    obtain ⟨_, -, rfl⟩ := List.mem_map.1 hc
    rfl
  | _ => exact hs

/-- REGISTER checks the pin, and no other command makes a slot active or writes a pin (40_registry_commands.md R101). -/
theorem CommandEffect.pinsInRange {s t : State} {i : Instr} (h : CommandEffect s i t) (hs : s.PinsInRange) :
    t.PinsInRange := by
  cases h with
  | registers hpin => exact forall_mem_setSlot hs fun _ => hpin
  | releases => exact forall_mem_setSlot hs nofun
  | setsDelay hc =>
    have hslot := hs _ (mem_of_activeSlot hc)
    exact forall_mem_setSlot hs hslot
  | @disables _ value p =>
    have hq := quiesce_sameRegistry
      { s with en := false, pol := p, pullup := ctrlPullup value, fmonCont := ctrlFmonCont value }
    exact hq.pinsInRange (quiesce_sameParameters _) hs
  | _ => exact hs

theorem CommandEffect.inv {s t : State} {i : Instr} (h : CommandEffect s i t) (hs : s.Inv) : t.Inv := by
  obtain ⟨hsame, hen⟩ | ⟨-, p, pullup, fmonCont, rfl⟩ := h.sameCycle_or_quiesces
  · obtain ⟨-, -, -, -, -, hpins, -⟩ := id hs
    exact hsame.inv h.sameParameters hs hen h.fired_low (h.pinsInRange hpins)
  · obtain ⟨hsizes, -, -, -, -, hpins, -⟩ := hs
    exact quiesce_inv (s := { s with en := false, pol := p, pullup := pullup, fmonCont := fmonCont }) hsizes hpins

/-! The step. -/

/-- Settles O43, from the lemma of each effect of a step. -/
theorem everyStepKeepsTheInvariant : Obligations.EveryStepKeepsTheInvariant := by
  intro s t hs h
  have htaken : s.taken.Inv := hs
  cases step_effect h with
  | ticks _ hen => exact tick_inv htaken hen
  | takesLevel => exact zcin_inv _ htaken
  | servesZc _ _ hz => exact serviceZc_inv htaken hz
  | servesTmr _ ht => exact serviceTmr_inv htaken ht
  | obeys _ _ heff => exact heff.inv htaken
  | rejects => exact htaken
  | resets => exact resetStep_inv _ htaken.1
  | idles => exact htaken

end Sys2Proof.Machine

/-! What the steps change of the half-cycle, the lines and the slots (10_state.md R22, R25, R37, R45, R48). -/
namespace Sys2Proof.Machine

/-- Settles O41: the step is `resetStep`, whose every field is at the value of R49. -/
theorem resetClearsEveryPieceOfState : Obligations.ResetClearsEveryPieceOfState := by
  intro s v rest hin
  refine ⟨_, step_of_select_reset (select_reset hin), ?_⟩
  and_intros <;> rfl

/-! The half-cycle (10_state.md R37, R48). -/

/-- The request that an expiry raises, under R48 (a) and (b): the count has just run out. -/
theorem tick_expires {s : State} (hs : s.Inv) (harmed : s.tmrArmed = true) (hdone : (tick s).tmrArmed = false) :
    (tick s).tmrPend = true ∧ (tick s).fireEpoch = (tick s).epoch ∧ (tick s).epoch = s.epoch ∧
      (tick s).armValue = s.armValue ∧ (tick s).armEpoch = s.armEpoch ∧
      (tick s).now - (tick s).tEdge = (tick s).armValue.setWidth 32 := by
  obtain ⟨-, -, htime, -⟩ := hs
  obtain ⟨hepoch, -, hend⟩ := htime harmed
  by_cases hlast : s.tmrCnt = 1#16
  · have helapsed : s.now + 1#32 - s.tEdge = s.armValue.setWidth 32 := by
      rw [hlast] at hend
      bv_omega
    rw [tick_of_last harmed hlast]
    exact ⟨rfl, hepoch, rfl, rfl, rfl, helapsed⟩
  · rw [tick_of_running harmed hlast] at hdone
    exact absurd (harmed.symm.trans hdone) nofun

/-- What a waiting request keeps: its epoch, with the timer disarmed and the armed value and epoch as they are
(R48 (g)). -/
structure KeepsExpiry (s t : State) : Prop where
  tmrPend : t.tmrPend = true
  tmrArmed : t.tmrArmed = false
  fireEpoch : t.fireEpoch = s.fireEpoch
  epoch : t.epoch = s.epoch
  armValue : t.armValue = s.armValue
  armEpoch : t.armEpoch = s.armEpoch

theorem SameCycle.keepsExpiry {s t : State} (h : SameCycle s t) (hp : s.tmrPend = true) (ha : s.tmrArmed = false) :
    KeepsExpiry s t :=
  ⟨h.tmrPend.trans hp, h.tmrArmed.trans ha, h.fireEpoch, h.epoch, h.armValue, h.armEpoch⟩

theorem tick_keepsExpiry {s : State} (hp : s.tmrPend = true) (ha : s.tmrArmed = false) : KeepsExpiry s (tick s) := by
  rw [tick_of_disarmed ha]
  exact ⟨hp, ha, rfl, rfl, rfl, rfl⟩

theorem zcin_keepsExpiry {s : State} (v : Bool) (hp : s.tmrPend = true) (ha : s.tmrArmed = false) :
    KeepsExpiry s (zcin v s) := by
  rw [zcin_frame]
  exact ⟨hp, ha, rfl, rfl, rfl, rfl⟩

/-- Settles O45: an expiry is the TICK that ends the countdown, and only what the statement leaves out touches a waiting
request. -/
theorem expiryKeepsItsArmingUntilServed : Obligations.ExpiryKeepsItsArmingUntilServed := by
  intro s t hs h
  constructor
  · intro hk harmed hdone
    have hsel : select s = ⟨.tick, (select s).rest⟩ := by rw [← hk]
    cases (step_of_select_tick hsel).symm.trans h
    exact tick_expires (s := s.taken) hs harmed hdone
  · intro hp ha hservice hreset hquiesce
    have hkeeps : KeepsExpiry s.taken t := by
      cases step_effect h with
      | ticks => exact tick_keepsExpiry hp ha
      | takesLevel => exact zcin_keepsExpiry _ hp ha
      | servesZc hk => exact absurd hk (hservice _)
      | servesTmr hk => exact absurd hk (hservice _)
      | obeys _ hf heff =>
        obtain ⟨hsame, -⟩ | ⟨⟨value, rfl, heven⟩, -⟩ := heff.sameCycle_or_quiesces
        · exact hsame.keepsExpiry hp ha
        · have hodd := hquiesce _ value hf
          omega
      | rejects => exact ⟨hp, ha, rfl, rfl, rfl, rfl⟩
      | resets hk => exact absurd hk (hreset _)
      | idles => exact ⟨hp, ha, rfl, rfl, rfl, rfl⟩
    exact ⟨hkeeps.tmrPend, hkeeps.tmrArmed, hkeeps.fireEpoch, hkeeps.epoch, hkeeps.armValue, hkeeps.armEpoch⟩

theorem serviceZc_epoch (s : State) : (serviceZc s).epoch = s.epoch + 1#32 := by
  rw [serviceZc_eq, schedule_epoch, sampleAtEdge_frame]
  rfl

theorem serviceZc_zcState (s : State) : (serviceZc s).zcState = .cycleActive := by
  rw [serviceZc_eq, schedule_zcState]
  rfl

theorem serviceTmr_epoch_zcState (s : State) :
    (serviceTmr s).epoch = s.epoch ∧ (serviceTmr s).zcState = s.zcState := by
  by_cases hlive : s.fireEpoch = s.epoch
  · rw [serviceTmr_live hlive, schedule_epoch, schedule_zcState, fire_eq_fireAll]
    exact ⟨rfl, rfl⟩
  · rw [serviceTmr_stale hlive]
    exact ⟨rfl, rfl⟩

/-- Settles O48: of the effects of a step only SVC_ZC, a quiesce and RESET write EPOCH or ZC_STATE. -/
theorem epochAndCycleChangeOnlyAtServices : Obligations.EpochAndCycleChangeOnlyAtServices := by
  intro s t h hreset
  cases step_effect h with
  | ticks =>
    rw [tick_frame]
    exact .inr (.inr ⟨rfl, rfl⟩)
  | takesLevel =>
    rw [zcin_frame]
    exact .inr (.inr ⟨rfl, rfl⟩)
  | servesZc _ hf => exact .inl ⟨⟨_, hf⟩, serviceZc_epoch _, serviceZc_zcState _⟩
  | servesTmr => exact .inr (.inr (serviceTmr_epoch_zcState _))
  | obeys _ hf heff =>
    obtain ⟨hsame, -⟩ | ⟨⟨value, rfl, heven⟩, p, pullup, fmonCont, rfl⟩ := heff.sameCycle_or_quiesces
    · exact .inr (.inr ⟨hsame.epoch, hsame.zcState⟩)
    · exact .inr (.inl ⟨⟨_, value, hf, heven⟩, rfl, .inl rfl⟩)
  | rejects => exact .inr (.inr ⟨rfl, rfl⟩)
  | resets hk => exact absurd hk (hreset _)
  | idles => exact .inr (.inr ⟨rfl, rfl⟩)

/-! The lines (10_state.md R45). -/

/-- Settles O47: every other step keeps a high line high. -/
theorem gatesFallOnlyAtEdgeQuiesceOrReset : Obligations.GatesFallOnlyAtEdgeQuiesceOrReset := by
  intro s t p h hhigh hlow
  have hfalls : t.gates[p]? ≠ some true := by
    rw [hlow]
    exact nofun
  cases step_effect h with
  | ticks =>
    rw [tick_frame] at hfalls
    exact absurd hhigh hfalls
  | takesLevel =>
    rw [zcin_frame] at hfalls
    exact absurd hhigh hfalls
  | servesZc _ hf => exact .inl ⟨_, hf⟩
  | servesTmr => exact absurd (serviceTmr_keeps_high (s := s.taken) hhigh) hfalls
  | obeys _ hf heff =>
    obtain ⟨hsame, -⟩ | ⟨⟨value, rfl, heven⟩, -⟩ := heff.sameCycle_or_quiesces
    · rw [hsame.gates] at hfalls
      exact absurd hhigh hfalls
    · exact .inr (.inl ⟨_, value, hf, heven⟩)
  | rejects => exact absurd hhigh hfalls
  | resets hk => exact .inr (.inr ⟨_, hk⟩)
  | idles => exact absurd hhigh hfalls

/-! The slots (10_state.md R22, R25). -/

/-- A write of an active slot that keeps its PIN and FIRED keeps those of every slot. -/
theorem setSlot_pin_fired {id : U8} {s : State} {k : Nat} {c d e x : Slot} (he : activeSlot id s = some e)
    (hc : s.chans[k]? = some c) (hd : (setSlot id.toNat x s).chans[k]? = some d) (hpin : x.pin = e.pin)
    (hfired : x.fired = e.fired) : d.pin = c.pin ∧ d.fired = c.fired := by
  obtain ⟨rfl, rfl⟩ | hkept := getElem?_setSlot hd
  · cases hc.symm.trans ((activeSlot_eq_some _ _ _).1 he).1
    exact ⟨hpin, hfired⟩
  · cases hc.symm.trans hkept
    exact ⟨rfl, rfl⟩

/-- What happens to PIN and FIRED of a slot under a host command: a REGISTER may take it if it is free, a quiesce clears
FIRED, and both are kept otherwise (60_exceptions.md R225). -/
theorem CommandEffect.pin_fired {s t : State} {i : Instr} {k : Nat} {c d : Slot} (h : CommandEffect s i t)
    (hc : s.chans[k]? = some c) (hd : t.chans[k]? = some d) :
    ((∃ pin, i = .register pin) ∧ c.active = false) ∨
      d.pin = c.pin ∧ (IsQuiesce i ∨ d.fired = c.fired) := by
  cases h with
  | registers _ hfree =>
    obtain ⟨⟨e, he, hidle⟩, -⟩ := (lowestFree_eq_some _ _).1 hfree
    obtain ⟨rfl, -⟩ | hkept := getElem?_setSlot hd
    · cases hc.symm.trans he
      exact .inl ⟨⟨_, rfl⟩, hidle⟩
    · cases hc.symm.trans hkept
      exact .inr ⟨rfl, .inr rfl⟩
  | releases he =>
    obtain ⟨hpin, hfired⟩ := setSlot_pin_fired he hc hd rfl rfl
    exact .inr ⟨hpin, .inr hfired⟩
  | setsDelay he =>
    obtain ⟨hpin, hfired⟩ := setSlot_pin_fired he hc hd rfl rfl
    exact .inr ⟨hpin, .inr hfired⟩
  | @disables index value p hr _ hen =>
    have hq := quiesce_sameRegistry
      { s with en := false, pol := p, pullup := ctrlPullup value, fmonCont := ctrlFmonCont value }
    rw [regOfIndex_eq_ctrl _ hr]
    exact .inr ⟨(hq.slot hc hd).1, .inl ⟨value, rfl, (ctrlEn_eq_false_iff _).1 hen⟩⟩
  | _ =>
    cases hc.symm.trans hd
    exact .inr ⟨rfl, .inr rfl⟩

/-- A slot that a step leaves as it is. -/
theorem pin_fired_of_eq {c d : Slot} {P : Prop} (h : some c = some d) :
    (c.active = true → d.pin = c.pin) ∧ (c.fired = true → d.fired = false → P) := by
  cases h
  exact ⟨fun _ => rfl, fun hon hoff => absurd (hon.symm.trans hoff) nofun⟩

/-- Settles O51: the services write nothing of a slot but FIRED, SVC_TMR only sets it, and the commands are those of
`CommandEffect.pin_fired`. -/
theorem pinIsImmutableAndFiredIsKept : Obligations.PinIsImmutableAndFiredIsKept := by
  intro s t k c d h hreset hc hd
  cases step_effect h with
  | ticks =>
    rw [tick_frame] at hd
    exact pin_fired_of_eq (hc.symm.trans hd)
  | takesLevel =>
    rw [zcin_frame] at hd
    exact pin_fired_of_eq (hc.symm.trans hd)
  | servesZc _ hf =>
    have hpin := ((serviceZc_sameRegistry s.taken).slot hc hd).1
    exact ⟨fun _ => hpin, fun _ _ => .inl ⟨_, hf⟩⟩
  | servesTmr =>
    have hpin := ((serviceTmr_sameRegistry s.taken).slot hc hd).1
    exact ⟨fun _ => hpin,
      fun hon hoff => absurd ((serviceTmr_keeps_fired (s := s.taken) hc hd hon).symm.trans hoff) nofun⟩
  | obeys _ hf heff =>
    obtain ⟨⟨pin, rfl⟩, hfree⟩ | ⟨hpin, ⟨value, rfl, heven⟩ | hfired⟩ := heff.pin_fired hc hd
    · exact ⟨fun hon => absurd (hon.symm.trans hfree) nofun, fun _ _ => .inr (.inl ⟨_, pin, hf, hfree⟩)⟩
    · exact ⟨fun _ => hpin, fun _ _ => .inr (.inr ⟨_, value, hf, heven⟩)⟩
    · exact ⟨fun _ => hpin, fun hon hoff => absurd ((hfired.trans hon).symm.trans hoff) nofun⟩
  | rejects => exact pin_fired_of_eq (hc.symm.trans hd)
  | resets hk => exact absurd hk (hreset _)
  | idles => exact pin_fired_of_eq (hc.symm.trans hd)

end Sys2Proof.Machine

/-! The diagnostic counters influence nothing (10_state.md R43; 92_eei_decisions.md D8): every operation of a step,
run on a state with the counters and the response port blanked, answers what it answers on the state, up to them. -/
namespace Sys2Proof.Machine

/-- `f` reads the counters and the response port for nothing but themselves. -/
def IgnoresDiagnostics (f : State → State) : Prop :=
  ∀ s, (f s.withoutDiagnostics).withoutDiagnostics = (f s).withoutDiagnostics

theorem IgnoresDiagnostics.comp {f g : State → State} (hf : IgnoresDiagnostics f) (hg : IgnoresDiagnostics g) :
    IgnoresDiagnostics fun s => f (g s) := fun s => calc
  (f (g s.withoutDiagnostics)).withoutDiagnostics
      = (f (g s.withoutDiagnostics).withoutDiagnostics).withoutDiagnostics := (hf _).symm
  _ = (f (g s).withoutDiagnostics).withoutDiagnostics := by rw [hg]
  _ = (f (g s)).withoutDiagnostics := hf _

/-! The operations. -/

theorem armLeast_ignoresDiagnostics : IgnoresDiagnostics armLeast := by
  intro s
  have hleast : leastEligible s.withoutDiagnostics = leastEligible s := rfl
  unfold armLeast
  rw [hleast]
  cases leastEligible s with
  | none => rfl
  | some m => rfl

theorem schedule_ignoresDiagnostics : IgnoresDiagnostics schedule := by
  intro s
  have hfired : (fireAll (due s) s).withoutDiagnostics = fireAll (due s.withoutDiagnostics) s.withoutDiagnostics := rfl
  rw [schedule_eq, schedule_eq, ← hfired]
  exact armLeast_ignoresDiagnostics _

theorem fire_ignoresDiagnostics (v : U16) : IgnoresDiagnostics (fire v) := by
  intro s
  rw [fire_eq_fireAll, fire_eq_fireAll]
  rfl

theorem freqSample_ignoresDiagnostics (x : U32) : IgnoresDiagnostics (freqSample x) := by
  intro s
  unfold freqSample
  split <;> rfl

theorem sampleAtEdge_ignoresDiagnostics : IgnoresDiagnostics sampleAtEdge := by
  intro s
  have hsamples : samplesNow s.withoutDiagnostics = samplesNow s := rfl
  unfold sampleAtEdge
  rw [hsamples]
  split
  next => exact freqSample_ignoresDiagnostics (s.zcCapt - s.tEdge) s
  next => rfl

/-! The events and the services. -/

theorem tick_ignoresDiagnostics : IgnoresDiagnostics tick := by
  intro s
  cases harmed : s.tmrArmed with
  | false =>
    rw [tick_of_disarmed harmed, tick_of_disarmed (s := s.withoutDiagnostics) harmed]
    rfl
  | true =>
    by_cases hlast : s.tmrCnt = 1#16
    · rw [tick_of_last harmed hlast, tick_of_last (s := s.withoutDiagnostics) harmed hlast]
      rfl
    · rw [tick_of_running harmed hlast, tick_of_running (s := s.withoutDiagnostics) harmed hlast]
      rfl

theorem zcin_ignoresDiagnostics (v : Bool) : IgnoresDiagnostics (zcin v) := by
  intro s
  have hprev : s.withoutDiagnostics.zcPrev = s.zcPrev := rfl
  have hqual : edgeQualifies v s.withoutDiagnostics = edgeQualifies v s := rfl
  unfold zcin
  rw [hprev, hqual]
  split
  next => rfl
  next => split <;> rfl

theorem serviceZc_ignoresDiagnostics : IgnoresDiagnostics serviceZc := by
  have henter : IgnoresDiagnostics enterZc := fun _ => rfl
  have hstart : IgnoresDiagnostics startHalfCycle := fun _ => rfl
  rw [funext serviceZc_eq]
  exact schedule_ignoresDiagnostics.comp (hstart.comp (sampleAtEdge_ignoresDiagnostics.comp henter))

theorem serviceTmr_ignoresDiagnostics : IgnoresDiagnostics serviceTmr := by
  intro s
  by_cases hlive : s.fireEpoch = s.epoch
  · have henter : IgnoresDiagnostics fun s => { enterTmr s with tfireCnt := s.tfireCnt + 1#32 } := fun _ => rfl
    rw [serviceTmr_live hlive, serviceTmr_live (s := s.withoutDiagnostics) hlive]
    exact schedule_ignoresDiagnostics.comp ((fire_ignoresDiagnostics s.armValue).comp henter) s
  · rw [serviceTmr_stale hlive, serviceTmr_stale (s := s.withoutDiagnostics) hlive]
    rfl

/-! The instructions. -/

/-- The outcome with the counters and the response port of its state blanked. -/
def withoutDiagnosticsOutcome : Host.Outcome State Fault Refusal → Host.Outcome State Fault Refusal
  | .next s => .next s.withoutDiagnostics
  | .fault r => .fault r
  | .refused r => .refused r

/-- A meaning that may refuse ignores them as well. -/
def OutcomeIgnoresDiagnostics (f : State → Host.Outcome State Fault Refusal) : Prop :=
  ∀ s, withoutDiagnosticsOutcome (f s.withoutDiagnostics) = withoutDiagnosticsOutcome (f s)

theorem slotAt_withoutDiagnostics (id : U8) (s : State) : slotAt id s.withoutDiagnostics = slotAt id s := rfl

theorem activeSlot_withoutDiagnostics (id : U8) (s : State) :
    activeSlot id s.withoutDiagnostics = activeSlot id s := rfl

theorem execRegister_ignoresDiagnostics (pin : U8) : OutcomeIgnoresDiagnostics (execRegister pin) := by
  intro s
  have hchans : s.withoutDiagnostics.chans = s.chans := rfl
  have hpins : s.withoutDiagnostics.numPins = s.numPins := rfl
  unfold execRegister
  rw [hchans, hpins]
  split
  next => cases lowestFree s.chans <;> rfl
  next => rfl

theorem execRelease_ignoresDiagnostics (id : U8) : OutcomeIgnoresDiagnostics (execRelease id) := by
  intro s
  unfold execRelease
  rw [activeSlot_withoutDiagnostics]
  cases activeSlot id s <;> rfl

theorem execSetdelay_ignoresDiagnostics (id : U8) (delay : U16) :
    OutcomeIgnoresDiagnostics (execSetdelay id delay) := by
  intro s
  unfold execSetdelay
  rw [activeSlot_withoutDiagnostics]
  cases activeSlot id s <;> rfl

theorem execGetdelay_ignoresDiagnostics (id : U8) : OutcomeIgnoresDiagnostics (execGetdelay id) := by
  intro s
  unfold execGetdelay
  rw [activeSlot_withoutDiagnostics]
  cases activeSlot id s <;> rfl

theorem execGetchan_ignoresDiagnostics (id : U8) : OutcomeIgnoresDiagnostics (execGetchan id) := by
  intro s
  unfold execGetchan
  rw [slotAt_withoutDiagnostics]
  cases slotAt id s <;> rfl

theorem execSetfmode_ignoresDiagnostics (mode : U2) : OutcomeIgnoresDiagnostics (execSetfmode mode) := by
  intro s
  unfold execSetfmode
  cases freqModeOf mode <;> rfl

theorem writeCtrl_ignoresDiagnostics (value : U16) : IgnoresDiagnostics (writeCtrl value) := by
  intro s
  unfold writeCtrl
  cases ctrlPol value with
  | none => rfl
  | some p => cases ctrlEn value <;> rfl

theorem execWreg_ignoresDiagnostics (index : U8) (value : U16) : OutcomeIgnoresDiagnostics (execWreg index value) := by
  intro s
  unfold execWreg
  split
  next => exact congrArg Host.Outcome.next (writeCtrl_ignoresDiagnostics value s)
  next => rfl
  next => rfl

/-- RREG of a counter reads it, into the response port only. -/
theorem execRreg_ignoresDiagnostics (index : U8) : OutcomeIgnoresDiagnostics (execRreg index) := by
  intro s
  unfold execRreg
  cases regOfIndex index <;> rfl

theorem execSvcZc_ignoresDiagnostics : OutcomeIgnoresDiagnostics execSvcZc := by
  intro s
  have hguard : s.withoutDiagnostics.zcPend = s.zcPend := rfl
  unfold execSvcZc
  rw [hguard]
  split
  next => exact congrArg Host.Outcome.next (serviceZc_ignoresDiagnostics s)
  next => rfl

theorem execSvcTmr_ignoresDiagnostics : OutcomeIgnoresDiagnostics execSvcTmr := by
  intro s
  have htmr : s.withoutDiagnostics.tmrPend = s.tmrPend := rfl
  have hzc : s.withoutDiagnostics.zcPend = s.zcPend := rfl
  unfold execSvcTmr
  rw [htmr, hzc]
  split
  next => exact congrArg Host.Outcome.next (serviceTmr_ignoresDiagnostics s)
  next => rfl

theorem exec_ignoresDiagnostics (i : Instr) : OutcomeIgnoresDiagnostics (exec i) := by
  cases i with
  | nop => exact fun _ => rfl
  | register pin => exact execRegister_ignoresDiagnostics pin
  | release id => exact execRelease_ignoresDiagnostics id
  | setdelay id delay => exact execSetdelay_ignoresDiagnostics id delay
  | getdelay id => exact execGetdelay_ignoresDiagnostics id
  | getsemi => exact fun _ => rfl
  | getfreq => exact fun _ => rfl
  | setfmode mode => exact execSetfmode_ignoresDiagnostics mode
  | wreg index value => exact execWreg_ignoresDiagnostics index value
  | rreg index => exact execRreg_ignoresDiagnostics index
  | measure => exact fun _ => rfl
  | getchan id => exact execGetchan_ignoresDiagnostics id
  | svcZc => exact execSvcZc_ignoresDiagnostics
  | svcTmr => exact execSvcTmr_ignoresDiagnostics

/-! The step. -/

theorem step_ignoresDiagnostics : OutcomeIgnoresDiagnostics step := by
  intro s
  cases hsel : select s with
  | mk kind rest =>
    have hsel' : select s.withoutDiagnostics = ⟨kind, rest⟩ := hsel
    cases kind with
    | tick =>
      rw [step_of_select_tick hsel, step_of_select_tick hsel']
      exact congrArg Host.Outcome.next (tick_ignoresDiagnostics { s with inputs := rest })
    | zcin v =>
      rw [step_of_select_zcin hsel, step_of_select_zcin hsel']
      exact congrArg Host.Outcome.next (zcin_ignoresDiagnostics v { s with inputs := rest })
    | service i =>
      rw [step_of_select_service hsel, step_of_select_service hsel']
      exact exec_ignoresDiagnostics i { s with inputs := rest }
    | cmd w =>
      cases hd : decode w with
      | command i =>
        rw [step_of_fetch_run (fetch_of_select_command hsel hd), step_of_fetch_run (fetch_of_select_command hsel' hd)]
        exact exec_ignoresDiagnostics i { s with inputs := rest }
      | rejected e =>
        rw [step_of_select_rejected hsel hd, step_of_select_rejected hsel' hd]
        rfl
    | reset v =>
      rw [step_of_select_reset hsel, step_of_select_reset hsel']
      rfl
    | nothing =>
      rw [step_of_select_nothing hsel, step_of_select_nothing hsel']
      rfl

/-- Settles O53: both steps are, up to the diagnostics, that of the common blanked state. -/
theorem diagnosticCountersInfluenceNothing : Obligations.DiagnosticCountersInfluenceNothing := by
  intro s₁ s₂ t₁ t₂ hsame h₁ h₂
  have hnext : withoutDiagnosticsOutcome (.next t₁) = withoutDiagnosticsOutcome (.next t₂) := calc
    withoutDiagnosticsOutcome (.next t₁) = withoutDiagnosticsOutcome (step s₁) := by rw [h₁]
    _ = withoutDiagnosticsOutcome (step s₁.withoutDiagnostics) := (step_ignoresDiagnostics s₁).symm
    _ = withoutDiagnosticsOutcome (step s₂.withoutDiagnostics) := by rw [hsame]
    _ = withoutDiagnosticsOutcome (step s₂) := step_ignoresDiagnostics s₂
    _ = withoutDiagnosticsOutcome (.next t₂) := by rw [h₂]
  exact Host.Outcome.next.inj hnext

end Sys2Proof.Machine

/-! A line rises only where a dispatch asserts it (20_memory.md R68, 42_scheduler_timer.md R144). -/
namespace Sys2Proof.Machine

/-- Some slot of `s` is active and fired with pin `p`. -/
def State.FiredOn (s : State) (p : Nat) : Prop :=
  ∃ c ∈ s.chans, c.active = true ∧ c.fired = true ∧ c.pin.toNat = p

/-- A line that a dispatch of active slots raises is the line of a slot that it marks fired. -/
theorem fireAll_firedOn_of_rise {q : Slot → Bool} {s : State} {p : Nat} (hq : ∀ c, q c = true → c.active = true)
    (hlow : s.gates[p]? ≠ some true) (hhigh : (fireAll q s).gates[p]? = some true) : (fireAll q s).FiredOn p := by
  have hp : p < s.gates.length := fireAll_gates_length q s ▸ (List.getElem?_eq_some_iff.1 hhigh).1
  obtain hwas | ⟨c, hc, hsel, hpin⟩ := (fireAll_gates q s p hp).1 hhigh
  · exact absurd hwas hlow
  · have hmem : { c with fired := true } ∈ (fireAll q s).chans := List.mem_map.2 ⟨c, hc, if_pos hsel⟩
    exact ⟨_, hmem, hq c hsel, rfl, hpin⟩

theorem active_of_eligible {sp : U16} {c : Slot} (h : eligible sp c = true) : c.active = true :=
  ((eligible_iff sp c).1 h).1

theorem active_of_due {s : State} {c : Slot} (h : due s c = true) : c.active = true :=
  active_of_eligible ((due_iff s c).1 h).1

theorem active_of_fires {sp v : U16} {c : Slot} (h : fires sp v c = true) : c.active = true :=
  active_of_eligible (Bool.and_eq_true_iff.1 h).1

theorem schedule_firedOn_of_rise {s : State} {p : Nat} (hlow : s.gates[p]? ≠ some true)
    (hhigh : (schedule s).gates[p]? = some true) : (schedule s).FiredOn p := by
  rw [schedule_gates] at hhigh
  rw [State.FiredOn, schedule_chans]
  exact fireAll_firedOn_of_rise (fun _ => active_of_due) hlow hhigh

/-! No line is high after `DEASSERT_ALL()` (42_scheduler_timer.md R145), hence none where a half-cycle opens or ends. -/

theorem deassertAll_not_high (s : State) (p : Nat) : (deassertAll s).gates[p]? ≠ some true := by
  intro hhigh
  obtain ⟨_, -, hfalse⟩ := List.mem_map.1 (List.mem_of_getElem? hhigh)
  exact absurd hfalse nofun

theorem startHalfCycle_not_high (s : State) (p : Nat) : (startHalfCycle s).gates[p]? ≠ some true :=
  deassertAll_not_high s p

theorem quiesce_not_high (s : State) (p : Nat) : (quiesce s).gates[p]? ≠ some true :=
  deassertAll_not_high s p

theorem resetStep_not_high (v : Bool) (s : State) (p : Nat) : (resetStep v s).gates[p]? ≠ some true := fun hhigh =>
  absurd (List.eq_of_mem_replicate (List.mem_of_getElem? hhigh)) nofun

/-! The services. -/

/-- SVC_ZC lowers every line first, so a line that is high after it was raised by its Schedule. -/
theorem serviceZc_firedOn_of_high {s : State} {p : Nat} (hhigh : (serviceZc s).gates[p]? = some true) :
    (serviceZc s).FiredOn p := by
  rw [serviceZc_eq] at hhigh ⊢
  exact schedule_firedOn_of_rise (startHalfCycle_not_high _ p) hhigh

/-- SVC_TMR raises a line only for a firing of this epoch: a stale one asserts nothing (42_scheduler_timer.md R152). -/
theorem serviceTmr_live_and_firedOn_of_rise {s : State} {p : Nat} (hlow : s.gates[p]? ≠ some true)
    (hhigh : (serviceTmr s).gates[p]? = some true) : s.fireEpoch = s.epoch ∧ (serviceTmr s).FiredOn p := by
  by_cases hlive : s.fireEpoch = s.epoch
  · refine ⟨hlive, ?_⟩
    rw [serviceTmr_live hlive, schedule_fire, armLeast_frame] at hhigh ⊢
    refine fireAll_firedOn_of_rise (fun c hsel => ?_) hlow hhigh
    exact (Bool.or_eq_true_iff.1 hsel).elim active_of_fires active_of_due
  · rw [serviceTmr_stale hlive] at hhigh
    exact absurd hhigh hlow

/-! The commands and the step. -/

/-- No host command raises a line (20_memory.md R68). -/
theorem CommandEffect.not_high_of_not_high {s t : State} {i : Instr} {p : Nat} (h : CommandEffect s i t)
    (hlow : s.gates[p]? ≠ some true) : t.gates[p]? ≠ some true := by
  obtain ⟨hsame, -⟩ | ⟨-, _, _, _, rfl⟩ := h.sameCycle_or_quiesces
  · rw [hsame.gates]
    exact hlow
  · exact quiesce_not_high _ p

theorem fetch_of_select_kind_service {s : State} {i : Instr} (hk : (select s).kind = .service i) :
    fetch s = .run i s.taken := by
  rw [fetch_eq, hk]
  rfl

/-- Settles O46: of the effects of a step only the two services raise a line, and each marks the slot it raises it
for. -/
theorem gatesRiseOnlyInLiveServices : Obligations.GatesRiseOnlyInLiveServices := by
  intro s t p h hlow hhigh
  have hwasLow : s.gates[p]? ≠ some true := by
    rw [hlow]
    exact nofun
  cases step_effect h with
  | ticks =>
    rw [tick_frame] at hhigh
    exact absurd hhigh hwasLow
  | takesLevel =>
    rw [zcin_frame] at hhigh
    exact absurd hhigh hwasLow
  | servesZc _ hf => exact ⟨.inl ⟨_, hf⟩, serviceZc_firedOn_of_high hhigh⟩
  | servesTmr hk =>
    obtain ⟨hlive, hfired⟩ := serviceTmr_live_and_firedOn_of_rise (s := s.taken) hwasLow hhigh
    exact ⟨.inr ⟨⟨_, fetch_of_select_kind_service hk⟩, hlive⟩, hfired⟩
  | obeys _ _ heff => exact absurd hhigh (heff.not_high_of_not_high hwasLow)
  | rejects => exact absurd hhigh hwasLow
  | resets => exact absurd hhigh (resetStep_not_high _ _ p)
  | idles => exact absurd hhigh hwasLow

end Sys2Proof.Machine

/-! The commands that read (20_memory.md R67). -/
namespace Sys2Proof.Machine

/-- The five commands that only read. -/
def IsRead (i : Instr) : Prop :=
  i = .getsemi ∨ i = .getfreq ∨ (∃ id, i = .getdelay id) ∨ (∃ id, i = .getchan id) ∨ ∃ index, i = .rreg index

theorem IsRead.isCommand {i : Instr} (h : IsRead i) : i.isCommand = true := by
  obtain rfl | rfl | ⟨_, rfl⟩ | ⟨_, rfl⟩ | ⟨_, rfl⟩ := h <;> rfl

/-- The only effect of a read is its answer: every write is the effect of another command. -/
theorem CommandEffect.answers_of_isRead {s t : State} {i : Instr} (h : CommandEffect s i t) (hread : IsRead i) :
    ∃ st d, t = respond st d s := by
  cases h with
  | answers => exact ⟨_, _, rfl⟩
  | _ => simp [IsRead] at hread

/-- Settles O52: a read only answers, and an answer writes the response port alone. -/
theorem readsChangeNothing : Obligations.ReadsChangeNothing := by
  intro i s t (hread : IsRead i) h
  obtain ⟨st, d, rfl⟩ := (exec_effect hread.isCommand h).answers_of_isRead hread
  exact respond_eq st d s

end Sys2Proof.Machine

/-! The twelve command formats as fields (30_encoding.md R82, R83): a word decodes to a command exactly if it is the
word that the encoder writes for it. -/
namespace Sys2Proof

/-- A row of the table of 30_encoding.md R83 by what the command uses: its opcode and the bits of `A` and `B`. -/
structure CommandFormat where
  op : U4
  usedA : U8
  usedB : U16
  assemble : U8 → U16 → Instr

/-- The row of the table: every bit but the used ones must match. -/
def CommandFormat.row (f : CommandFormat) : CommandRow :=
  ⟨~~~commandWord 0#4 f.usedA f.usedB, commandWord f.op 0#8 0#16, f.assemble⟩

/-- The word `{OP, 0, A, B}` with the bits that the command does not use cleared. -/
def CommandFormat.word (f : CommandFormat) (a : U8) (b : U16) : U32 :=
  commandWord f.op (a &&& f.usedA) (b &&& f.usedB)

/-- The bits that must be zero in a word with the command's opcode (30_encoding.md R87). -/
def CommandFormat.mustBeZero (f : CommandFormat) : U32 := ~~~commandWord 0xF#4 f.usedA f.usedB

/-- The formats of the twelve host commands, in the order of their opcodes. -/
def commandFormats : List CommandFormat :=
  [ ⟨0x0#4, 0#8, 0#16, fun _ _ => .nop⟩,
    ⟨0x1#4, .allOnes 8, 0#16, fun a _ => .register a⟩,
    ⟨0x2#4, .allOnes 8, 0#16, fun a _ => .release a⟩,
    ⟨0x3#4, .allOnes 8, .allOnes 16, fun a b => .setdelay a b⟩,
    ⟨0x4#4, .allOnes 8, 0#16, fun a _ => .getdelay a⟩,
    ⟨0x5#4, 0#8, 0#16, fun _ _ => .getsemi⟩,
    ⟨0x6#4, 0#8, 0#16, fun _ _ => .getfreq⟩,
    ⟨0x7#4, 0#8, 3#16, fun _ b => .setfmode (b.extractLsb' 0 2)⟩,
    ⟨0x8#4, .allOnes 8, .allOnes 16, fun a b => .wreg a b⟩,
    ⟨0x9#4, .allOnes 8, 0#16, fun a _ => .rreg a⟩,
    ⟨0xA#4, 0#8, 0#16, fun _ _ => .measure⟩,
    ⟨0xB#4, .allOnes 8, 0#16, fun a _ => .getchan a⟩ ]

/-- The formats are the table of 30_encoding.md R83. -/
theorem commandRows_eq_map_row : commandRows = commandFormats.map CommandFormat.row := rfl

/-- Each format stands at its opcode. -/
theorem commandFormats_getElem?_op : ∀ f ∈ commandFormats, commandFormats[f.op.toNat]? = some f := by
  simp only [commandFormats, List.forall_mem_cons]
  exact ⟨rfl, rfl, rfl, rfl, rfl, rfl, rfl, rfl, rfl, rfl, rfl, rfl, nofun⟩

theorem commandRows_getElem?_op {f : CommandFormat} (hf : f ∈ commandFormats) :
    commandRows[f.op.toNat]? = some f.row := by
  rw [commandRows_eq_map_row, List.getElem?_map, commandFormats_getElem?_op f hf, Option.map_some]

/-! The fields of a word. -/

/-- Masking by fields keeps the fields apart; the bits 27:24 are masked out. -/
theorem and_commandWord (w : U32) (o : U4) (a : U8) (b : U16) :
    w &&& commandWord o a b = commandWord (opField w &&& o) (aField w &&& a) (bField w &&& b) := by
  refine BitVec.eq_of_getLsbD_eq fun i hi => ?_
  simp only [BitVec.getLsbD_and, commandWord_getLsbD, opField, aField, bField, BitVec.getLsbD_extractLsb']
  split
  next h => simp [h]
  next h =>
    split
    next h' => simp [show 16 + (i - 16) = i by omega, show i - 16 < 8 by omega]
    next h' =>
      split
      next => simp
      next h'' => simp [show 28 + (i - 28) = i by omega, show i - 28 < 4 by omega]

/-- The opcode is the word divided by `2^28`. -/
theorem opField_toNat (w : U32) : (opField w).toNat = w.toNat / 2 ^ 28 := by
  have hw := w.isLt
  rw [opField, BitVec.extractLsb'_toNat, Nat.shiftRight_eq_div_pow]
  omega

/-- The opcode and the operands of a word, put together. -/
theorem commandWord_or_commandWord (o : U4) (a : U8) (b : U16) :
    commandWord o 0#8 0#16 ||| commandWord 0#4 a b = commandWord o a b := by
  refine BitVec.eq_of_getLsbD_eq fun i hi => ?_
  simp only [BitVec.getLsbD_or, commandWord_getLsbD]
  split_ifs <;> simp

/-- A word matches a row exactly if it has the row's opcode and sets no bit that the command does not use. -/
theorem CommandFormat.row_matches_iff (f : CommandFormat) (w : U32) :
    w &&& f.row.mask = f.row.pattern ↔ w = f.word (aField w) (bField w) := by
  constructor
  · intro (h : w &&& ~~~commandWord 0#4 f.usedA f.usedB = commandWord f.op 0#8 0#16)
    calc w = w &&& ~~~commandWord 0#4 f.usedA f.usedB ||| w &&& commandWord 0#4 f.usedA f.usedB := by
          rw [← BitVec.and_or_distrib_left, BitVec.not_or_self, BitVec.and_allOnes]
      _ = f.word (aField w) (bField w) := by
          rw [h, and_commandWord, BitVec.and_zero, commandWord_or_commandWord, CommandFormat.word]
  · intro h
    rw [h]
    refine commandWord_and _ _ _ _ _ fun i hi => ?_
    simp only [CommandFormat.row, BitVec.getLsbD_not, commandWord_getLsbD, BitVec.getLsbD_and, hi]
    split_ifs <;> simp [Bool.and_assoc]

@[simp] theorem CommandFormat.opField_word (f : CommandFormat) (a : U8) (b : U16) : opField (f.word a b) = f.op :=
  opField_commandWord _ _ _

/-- The word carries no bit that must be zero. -/
theorem CommandFormat.word_and_mustBeZero (f : CommandFormat) (a : U8) (b : U16) :
    f.word a b &&& f.mustBeZero = 0#32 := by
  have hword : f.word a b = commandWord f.op a b &&& commandWord 0xF#4 f.usedA f.usedB := by
    rw [and_commandWord, opField_commandWord, aField_commandWord, bField_commandWord]
    exact congrArg (commandWord · _ _) (BitVec.and_allOnes (x := f.op)).symm
  rw [hword, CommandFormat.mustBeZero, BitVec.and_assoc, BitVec.and_not_self]
  exact BitVec.and_zero

/-! The instructions of the formats. -/

/-- The mode of SETFMODE is the two bits that it uses. -/
theorem setWidth_extractLsb'_mode (b : U16) : (b.extractLsb' 0 2).setWidth 16 = b &&& 3#16 := by
  have h3 : (3#16).toNat = 2 ^ 2 - 1 := rfl
  apply BitVec.eq_of_toNat_eq
  rw [BitVec.toNat_and, h3, Nat.and_two_pow_sub_one_eq_mod, BitVec.toNat_setWidth, BitVec.extractLsb'_toNat]
  simp; omega

theorem extractLsb'_mode_used (b : U16) : (b &&& 3#16).extractLsb' 0 2 = b.extractLsb' 0 2 := by
  rw [BitVec.extractLsb'_and]
  exact BitVec.and_allOnes (x := b.extractLsb' 0 2)

/-- A command does not depend on the bits that it does not use. -/
theorem assemble_used :
    ∀ f ∈ commandFormats, ∀ a b, f.assemble (a &&& f.usedA) (b &&& f.usedB) = f.assemble a b := by
  simp only [commandFormats, List.forall_mem_cons, BitVec.and_allOnes, extractLsb'_mode_used,
    implies_true, true_and]
  nofun

/-- The encoder writes the word of the format. -/
theorem encodeCommand_assemble :
    ∀ f ∈ commandFormats, ∀ a b, encodeCommand (f.assemble a b) = some (f.word a b) := by
  simp only [commandFormats, List.forall_mem_cons, encodeCommand, CommandFormat.word, BitVec.and_zero,
    BitVec.and_allOnes, setWidth_extractLsb'_mode, implies_true, true_and]
  nofun

/-- Every host command is a format with operands. -/
theorem exists_format_of_isCommand {i : Instr} (h : i.isCommand = true) :
    ∃ f ∈ commandFormats, ∃ a b, f.assemble a b = i := by
  cases i with
  | nop => exact ⟨_, List.mem_of_getElem? (i := 0) rfl, 0#8, 0#16, rfl⟩
  | register pin => exact ⟨_, List.mem_of_getElem? (i := 1) rfl, pin, 0#16, rfl⟩
  | release id => exact ⟨_, List.mem_of_getElem? (i := 2) rfl, id, 0#16, rfl⟩
  | setdelay id delay => exact ⟨_, List.mem_of_getElem? (i := 3) rfl, id, delay, rfl⟩
  | getdelay id => exact ⟨_, List.mem_of_getElem? (i := 4) rfl, id, 0#16, rfl⟩
  | getsemi => exact ⟨_, List.mem_of_getElem? (i := 5) rfl, 0#8, 0#16, rfl⟩
  | getfreq => exact ⟨_, List.mem_of_getElem? (i := 6) rfl, 0#8, 0#16, rfl⟩
  | setfmode mode =>
    refine ⟨_, List.mem_of_getElem? (i := 7) rfl, 0#8, mode.setWidth 16, ?_⟩
    exact congrArg Instr.setfmode (by revert mode; decide)
  | wreg index value => exact ⟨_, List.mem_of_getElem? (i := 8) rfl, index, value, rfl⟩
  | rreg index => exact ⟨_, List.mem_of_getElem? (i := 9) rfl, index, 0#16, rfl⟩
  | measure => exact ⟨_, List.mem_of_getElem? (i := 10) rfl, 0#8, 0#16, rfl⟩
  | getchan id => exact ⟨_, List.mem_of_getElem? (i := 11) rfl, id, 0#16, rfl⟩
  | svcZc => cases h
  | svcTmr => cases h

/-! Decoding and encoding. -/

/-- A word decodes to a command exactly if it is the word of the command's format (30_encoding.md R85). -/
theorem decode_eq_command_iff_word (w : U32) (i : Instr) :
    decode w = .command i ↔ ∃ f ∈ commandFormats, ∃ a b, f.assemble a b = i ∧ f.word a b = w := by
  rw [decode_eq_command]
  constructor
  · rintro ⟨row, hrow, hmatch, rfl⟩
    rw [commandRows_eq_map_row, List.getElem?_map, Option.map_eq_some_iff] at hrow
    obtain ⟨f, hf, rfl⟩ := hrow
    exact ⟨f, List.mem_of_getElem? hf, aField w, bField w, rfl, ((f.row_matches_iff w).1 hmatch).symm⟩
  · rintro ⟨f, hf, a, b, rfl, rfl⟩
    have hfields : f.word a b = f.word (aField (f.word a b)) (bField (f.word a b)) := by
      simp only [CommandFormat.word, aField_commandWord, bField_commandWord, BitVec.and_assoc, BitVec.and_self]
    refine ⟨f.row, ?_, (f.row_matches_iff _).2 hfields, ?_⟩
    · rw [f.opField_word, commandRows_getElem?_op hf]
    · rw [CommandFormat.word, aField_commandWord, bField_commandWord]
      exact assemble_used f hf a b

/-- The encoder writes a word for a command exactly if it is the word of the command's format. -/
theorem encodeCommand_eq_some_iff_word (w : U32) (i : Instr) :
    encodeCommand i = some w ↔ ∃ f ∈ commandFormats, ∃ a b, f.assemble a b = i ∧ f.word a b = w := by
  constructor
  · intro h
    have hi : i.isCommand = true := by
      cases i with
      | svcZc => cases h
      | svcTmr => cases h
      | _ => rfl
    obtain ⟨f, hf, a, b, rfl⟩ := exists_format_of_isCommand hi
    exact ⟨f, hf, a, b, rfl, Option.some.inj ((encodeCommand_assemble f hf a b).symm.trans h)⟩
  · rintro ⟨f, hf, a, b, rfl, rfl⟩
    exact encodeCommand_assemble f hf a b

/-- The decoder and the encoder are one relation between words and commands (30_encoding.md R82, R83). -/
theorem decode_eq_command_iff_encodeCommand (w : U32) (i : Instr) :
    decode w = .command i ↔ encodeCommand i = some w := by
  rw [decode_eq_command_iff_word, encodeCommand_eq_some_iff_word]

/-- Settles O1: a service by its request vector, a command by `decode_eq_command_iff_encodeCommand`. -/
theorem encodedInstructionsDecodeToThemselves : Obligations.EncodedInstructionsDecodeToThemselves := by
  intro i
  cases hw : encodeCommand i with
  | some w =>
    have hd : decode w = .command i := (decode_eq_command_iff_encodeCommand w i).2 hw
    simp [encode, hw, decodeTableWord, hd]
  | none =>
    cases i with
    | svcZc => rfl
    | svcTmr => rfl
    | _ => cases hw

/-- Settles O2: what a word decodes to is encoded as that word. -/
theorem decodedWordsAreEncodedWords : Obligations.DecodedWordsAreEncodedWords := fun w i =>
  (decode_eq_command_iff_encodeCommand w i).1

/-- Settles O3: each word is the word that the encoder writes for its command. -/
theorem exampleWordsDecode : Obligations.ExampleWordsDecode := by
  simp only [Obligations.ExampleWordsDecode, decode_eq_command_iff_encodeCommand]
  exact ⟨rfl, rfl, rfl, rfl, rfl, rfl, rfl, rfl, rfl, rfl, rfl, rfl, rfl, rfl, rfl⟩

end Sys2Proof

/-! How a command word is answered (30_encoding.md R80, R84 to R87). -/
namespace Sys2Proof.Machine

/-- Settles O6: a status has the code of its row. -/
theorem statusCodesAreThoseOfTheTable : Obligations.StatusCodesAreThoseOfTheTable := by
  refine ⟨rfl, rfl, rfl, rfl, rfl, rfl, fun st => ?_⟩
  cases st <;> decide

/-- Settles O7: a command word at the head of the queue is selected, decoded and run. -/
theorem stepRunsTheDecodedCommand : Obligations.StepRunsTheDecodedCommand := fun _ _ _ _ h hd =>
  step_of_fetch_run (fetch_of_select_command (select_cmd h) hd)

/-- The step for a word that names no command. -/
theorem step_of_rejected {s : State} {w : U32} {e : DecodeError} {rest : List Event} (h : s.inputs = .cmd w :: rest)
    (hd : decode w = .rejected e) : step s = .next { s with inputs := rest, resp := some ⟨decodeStatus e, 0#32⟩ } :=
  step_of_select_rejected (select_cmd h) hd

/-! The words that name no command. -/

theorem decode_of_reservedOpcode {w : U32} (h : 0xC ≤ w.toNat / 2 ^ 28) : decode w = .rejected .reservedOpcode := by
  have hrow : commandRows[(opField w).toNat]? = none := by
    rw [List.getElem?_eq_none_iff, opField_toNat]
    exact h
  simp only [decode, hrow]

theorem decode_of_mustBeZero {f : CommandFormat} (hf : f ∈ commandFormats) {w : U32} (hop : opField w = f.op)
    (hw : w &&& f.mustBeZero ≠ 0#32) : decode w = .rejected .mustBeZeroSet := by
  have hrow : commandRows[(opField w).toNat]? = some f.row := by rw [hop, commandRows_getElem?_op hf]
  have hmismatch : ¬ w &&& f.row.mask = f.row.pattern := by
    intro hmatch
    rw [(f.row_matches_iff w).1 hmatch, f.word_and_mustBeZero] at hw
    exact hw rfl
  simp only [decode, hrow, if_neg hmismatch]

theorem decode_eq_nop_iff (w : U32) : decode w = .command .nop ↔ w = 0#32 := by
  rw [decode_eq_command_iff_encodeCommand]
  exact Option.some_inj.trans eq_comm

/-- Settles O4: no row of the table has a reserved opcode. -/
theorem reservedOpcodesAnswerBadOp : Obligations.ReservedOpcodesAnswerBadOp := fun _ _ _ h hop =>
  step_of_rejected h (decode_of_reservedOpcode hop)

/-- Settles O5: the pairs of the statement are the opcodes and must-be-zero bits of `commandFormats`. -/
theorem mustBeZeroBitsAnswerBadArg : Obligations.MustBeZeroBitsAnswerBadArg := by
  refine ⟨fun s w mbz rest h hmem hw => ?_, decode_eq_nop_iff⟩
  change _ ∈ commandFormats.map fun f => (f.op.toNat, f.mustBeZero) at hmem
  obtain ⟨f, hf, hpair⟩ := List.mem_map.1 hmem
  obtain ⟨hop, rfl⟩ := Prod.mk.inj hpair
  have hopField : opField w = f.op := BitVec.eq_of_toNat_eq ((opField_toNat w).trans hop.symm)
  exact step_of_rejected h (decode_of_mustBeZero hf hopField hw)

/-! Every command answers, and an error leaves the state as it was. -/

/-- What a host command answers in `s`: OK with a datum in some state with the same inputs to come, or an error that
changes nothing (30_encoding.md R84). -/
inductive Answered (s : State) : Host.Outcome State Fault Refusal → Prop where
  | ok (d : U32) {t : State} (h : t.inputs = s.inputs) : Answered s (.next (respond .ok d t))
  | error {st : Status} (h : st ≠ .ok) : Answered s (.next (fail st s))

theorem execRegister_answered (pin : U8) (s : State) : Answered s (execRegister pin s) := by
  unfold execRegister
  split
  next =>
    split
    next => exact .error nofun
    next => exact .ok _ rfl
  next => exact .error nofun

theorem execRelease_answered (id : U8) (s : State) : Answered s (execRelease id s) := by
  unfold execRelease
  split
  next => exact .error nofun
  next => exact .ok _ rfl

theorem execSetdelay_answered (id : U8) (delay : U16) (s : State) : Answered s (execSetdelay id delay s) := by
  unfold execSetdelay
  split
  next => exact .error nofun
  next => exact .ok _ rfl

theorem execGetdelay_answered (id : U8) (s : State) : Answered s (execGetdelay id s) := by
  unfold execGetdelay
  split
  next => exact .error nofun
  next => exact .ok _ rfl

theorem execGetchan_answered (id : U8) (s : State) : Answered s (execGetchan id s) := by
  unfold execGetchan
  split
  next => exact .error nofun
  next => exact .ok _ rfl

theorem execSetfmode_answered (mode : U2) (s : State) : Answered s (execSetfmode mode s) := by
  unfold execSetfmode
  split
  next => exact .error nofun
  next => exact .ok _ rfl

theorem execRreg_answered (index : U8) (s : State) : Answered s (execRreg index s) := by
  unfold execRreg
  split
  next => exact .error nofun
  next => exact .ok _ rfl

theorem writeCtrl_answered (value : U16) (s : State) : Answered s (.next (writeCtrl value s)) := by
  unfold writeCtrl
  split
  next => exact .error nofun
  next =>
    refine .ok _ ?_
    split
    next => rfl
    next => rw [quiesce_eq]

theorem execWreg_answered (index : U8) (value : U16) (s : State) : Answered s (execWreg index value s) := by
  unfold execWreg
  split
  next => exact writeCtrl_answered value s
  next => exact .ok _ rfl
  next => exact .error nofun

theorem exec_answered {i : Instr} (hi : i.isCommand = true) (s : State) : Answered s (exec i s) := by
  cases i with
  | nop => exact .ok _ rfl
  | register pin => exact execRegister_answered pin s
  | release id => exact execRelease_answered id s
  | setdelay id delay => exact execSetdelay_answered id delay s
  | getdelay id => exact execGetdelay_answered id s
  | getsemi => exact .ok _ rfl
  | getfreq => exact .ok _ rfl
  | setfmode mode => exact execSetfmode_answered mode s
  | wreg index value => exact execWreg_answered index value s
  | rreg index => exact execRreg_answered index s
  | measure => exact .ok _ rfl
  | getchan id => exact execGetchan_answered id s
  | svcZc => cases hi
  | svcTmr => cases hi

theorem decodeStatus_ne_ok (e : DecodeError) : decodeStatus e ≠ .ok := by
  cases e <;> nofun

/-- The step for a command word answers, whether the word names a command or not. -/
theorem step_cmd_answered {s : State} {w : U32} {rest : List Event} (h : s.inputs = .cmd w :: rest) :
    Answered { s with inputs := rest } (step s) := by
  cases hd : decode w with
  | command i =>
    rw [stepRunsTheDecodedCommand s w rest i h hd]
    exact exec_answered (isCommand_of_decode w i hd) _
  | rejected e =>
    rw [step_of_rejected h hd]
    exact .error (decodeStatus_ne_ok e)

/-- Settles O10: an answer is OK, or an error with datum 0 that writes the response port alone. -/
theorem everyCommandWordIsAnswered : Obligations.EveryCommandWordIsAnswered := by
  intro s w rest h
  have hanswered := step_cmd_answered h
  generalize step s = o at hanswered ⊢
  cases hanswered with
  | ok d hin => exact ⟨_, _, rfl, hin, rfl, fun hne => absurd rfl hne⟩
  | error => exact ⟨_, _, rfl, rfl, rfl, fun _ => ⟨rfl, rfl⟩⟩

/-! The operands that the parameters do not allow. -/

theorem slotAt_of_numSlots_le {id : U8} {s : State} (h : s.numSlots ≤ id.toNat) : slotAt id s = none :=
  List.getElem?_eq_none h

theorem activeSlot_of_numSlots_le {id : U8} {s : State} (h : s.numSlots ≤ id.toNat) : activeSlot id s = none := by
  rw [activeSlot, slotAt_of_numSlots_le h, Option.filter_none]

theorem execRegister_of_numPins_le {pin : U8} {s : State} (h : s.numPins ≤ pin.toNat) :
    execRegister pin s = .next (fail .errBadArg s) := if_neg (Nat.not_lt.2 h)

theorem execRelease_of_none {id : U8} {s : State} (h : activeSlot id s = none) :
    execRelease id s = .next (fail .errBadId s) := by simp only [execRelease, h]

theorem execSetdelay_of_none {id : U8} {delay : U16} {s : State} (h : activeSlot id s = none) :
    execSetdelay id delay s = .next (fail .errBadId s) := by simp only [execSetdelay, h]

theorem execGetdelay_of_none {id : U8} {s : State} (h : activeSlot id s = none) :
    execGetdelay id s = .next (fail .errBadId s) := by simp only [execGetdelay, h]

theorem execGetchan_of_none {id : U8} {s : State} (h : slotAt id s = none) :
    execGetchan id s = .next (fail .errBadId s) := by simp only [execGetchan, h]

theorem regOfIndex_eq_minRetrig : ∀ index : U8, regOfIndex index = some .minRetrig → index = 1#8 := by decide

/-- A reserved index names no register (20_memory.md R61). -/
theorem regOfIndex_of_reserved {index : U8} (h : 0x10 < index.toNat) : regOfIndex index = none :=
  List.getElem?_eq_none h

theorem execRreg_of_reserved {index : U8} {s : State} (h : 0x10 < index.toNat) :
    execRreg index s = .next (fail .errBadReg s) := by simp only [execRreg, regOfIndex_of_reserved h]

/-- Every index but those of CTRL and MIN_RETRIG is refused (44_config_regs.md R190). -/
theorem execWreg_of_not_writable {index : U8} {value : U16} {s : State} (h0 : index ≠ 0#8) (h1 : index ≠ 1#8) :
    execWreg index value s = .next (fail .errBadReg s) := by
  unfold execWreg
  split
  next hr => exact absurd (regOfIndex_eq_ctrl index hr) h0
  next hr => exact absurd (regOfIndex_eq_minRetrig index hr) h1
  next => rfl

theorem execWreg_ctrl (value : U16) (s : State) : execWreg 0#8 value s = .next (writeCtrl value s) := rfl

/-- The values of CTRL that are not well formed are those refused (44_config_regs.md R191). -/
theorem ctrlPol_eq_none_iff_not_wellFormed (value : U16) : ctrlPol value = none ↔ wellFormedCtrl value = false := by
  rw [ctrlPol_eq_none, wellFormedCtrl, Bool.and_eq_false_iff, decide_eq_false_iff_not, decide_eq_false_iff_not]
  omega

theorem writeCtrl_of_not_wellFormed {value : U16} {s : State} (h : wellFormedCtrl value = false) :
    writeCtrl value s = fail .errBadArg s := by
  simp only [writeCtrl, (ctrlPol_eq_none_iff_not_wellFormed value).2 h]

/-- A WREG that is not well formed is refused: no writable register, or an illegal value for CTRL. -/
theorem execWreg_of_not_wellFormed {cfg : Config} {index : U8} {value : U16} (s : State)
    (h : (Instr.wreg index value).wellFormed cfg = false) :
    ∃ st, st ≠ .ok ∧ execWreg index value s = .next (fail st s) := by
  simp only [Instr.wellFormed, Bool.or_eq_false_iff, Bool.and_eq_false_iff, decide_eq_false_iff_not] at h
  obtain ⟨h1, h0 | hvalue⟩ := h
  · exact ⟨.errBadReg, nofun, execWreg_of_not_writable h0 h1⟩
  · by_cases h0 : index = 0#8
    · rw [h0, execWreg_ctrl, writeCtrl_of_not_wellFormed hvalue]
      exact ⟨.errBadArg, nofun, rfl⟩
    · exact ⟨.errBadReg, nofun, execWreg_of_not_writable h0 h1⟩

/-- Settles O29: each operand check of `wellFormed` is one that the command itself makes. -/
theorem illFormedCommandsAreRefusedWhole : Obligations.IllFormedCommandsAreRefusedWhole := by
  intro cfg s i hn hnpins hi hbad
  have hid : ∀ id : U8, decide (id.toNat < cfg.n) = false → s.numSlots ≤ id.toNat := fun id h =>
    hn ▸ Nat.not_lt.1 (of_decide_eq_false h)
  cases i with
  | register pin =>
    have hpin : s.numPins ≤ pin.toNat := hnpins ▸ Nat.not_lt.1 (of_decide_eq_false hbad)
    exact ⟨.errBadArg, nofun, execRegister_of_numPins_le hpin⟩
  | release id => exact ⟨.errBadId, nofun, execRelease_of_none (activeSlot_of_numSlots_le (hid id hbad))⟩
  | setdelay id delay => exact ⟨.errBadId, nofun, execSetdelay_of_none (activeSlot_of_numSlots_le (hid id hbad))⟩
  | getdelay id => exact ⟨.errBadId, nofun, execGetdelay_of_none (activeSlot_of_numSlots_le (hid id hbad))⟩
  | getchan id => exact ⟨.errBadId, nofun, execGetchan_of_none (slotAt_of_numSlots_le (hid id hbad))⟩
  | setfmode mode =>
    obtain rfl : mode = 3#2 := not_not.1 (of_decide_eq_false hbad)
    exact ⟨.errBadArg, nofun, rfl⟩
  | wreg index value => exact execWreg_of_not_wellFormed s hbad
  | rreg index => exact ⟨.errBadReg, nofun, execRreg_of_reserved (Nat.not_le.1 (of_decide_eq_false hbad))⟩
  | svcZc => cases hi
  | svcTmr => cases hi
  | _ => cases hbad

/-! The fields of CTRL (30_encoding.md R90). -/

/-- Bits 2:1 of CTRL are POL and bit 3 is PULLUP, whatever the other bits are. -/
theorem ctrlView_pol_pullup (s : State) :
    (ctrlView s).extractLsb' 1 2 = polarityCode s.pol ∧ (ctrlView s).getLsbD 3 = s.pullup := by
  unfold ctrlView
  generalize polarityCode s.pol = code
  generalize s.fmonCont = fmonCont, s.pullup = pullup, s.en = en
  revert code fmonCont pullup en
  decide

theorem polarityCode_ne_three (p : Polarity) : polarityCode p ≠ 3#2 := by
  cases p <;> decide

/-- Settles O28: CTRL shows the code of the polarity, which is never 3, and the pull-up at bit 3. -/
theorem modeCodesAreThoseOfTheRegisters : Obligations.ModeCodesAreThoseOfTheRegisters := by
  refine ⟨rfl, rfl, rfl, rfl, rfl, rfl, fun s => ?_⟩
  obtain ⟨hpol, hpullup⟩ := ctrlView_pol_pullup s
  exact ⟨hpol ▸ polarityCode_ne_three s.pol, hpullup.symm⟩

end Sys2Proof.Machine

/-! When a word decodes to a command, by the command's mask and fields (30_encoding.md R83, R85). -/
namespace Sys2Proof

/-- A word is the format's word exactly if it matches the format's row and has the operands in the bits used. -/
theorem CommandFormat.word_eq_iff (f : CommandFormat) (a : U8) (b : U16) (w : U32) :
    f.word a b = w ↔
      w &&& f.row.mask = f.row.pattern ∧ aField w &&& f.usedA = a &&& f.usedA ∧
        bField w &&& f.usedB = b &&& f.usedB := by
  rw [f.row_matches_iff]
  constructor
  · rintro rfl
    simp only [CommandFormat.word, aField_commandWord, bField_commandWord, BitVec.and_assoc, BitVec.and_self,
      and_self]
  · rintro ⟨hw, ha, hb⟩
    rw [CommandFormat.word, ← ha, ← hb]
    exact hw.symm

/-- A word decodes to a command exactly if it matches the row of its format and has the operands that the command
uses. -/
theorem decode_eq_assemble_iff {f : CommandFormat} (hf : f ∈ commandFormats) (a : U8) (b : U16) (w : U32) :
    decode w = .command (f.assemble a b) ↔
      w &&& f.row.mask = f.row.pattern ∧ aField w &&& f.usedA = a &&& f.usedA ∧
        bField w &&& f.usedB = b &&& f.usedB := by
  rw [decode_eq_command_iff_encodeCommand, encodeCommand_assemble f hf, Option.some_inj, f.word_eq_iff]

/-- The formats that use `A` and not `B`: REGISTER, RELEASE, GETDELAY, RREG and GETCHAN. -/
theorem decode_eq_assemble_iff_of_aOnly {f : CommandFormat} (hf : f ∈ commandFormats)
    (ha : f.usedA = .allOnes 8) (hb : f.usedB = 0#16) (a : U8) (b : U16) (w : U32) :
    decode w = .command (f.assemble a b) ↔ w &&& 0xFF00FFFF#32 = f.row.pattern ∧ w.extractLsb' 16 8 = a := by
  have hmask : f.row.mask = 0xFF00FFFF#32 := by rw [CommandFormat.row, ha, hb]; rfl
  rw [decode_eq_assemble_iff hf, hmask, ha, hb]
  simp only [BitVec.and_allOnes, BitVec.and_zero, and_true]
  rfl

/-- The formats that use `A` and `B` whole: SETDELAY and WREG. -/
theorem decode_eq_assemble_iff_of_aAndB {f : CommandFormat} (hf : f ∈ commandFormats)
    (ha : f.usedA = .allOnes 8) (hb : f.usedB = .allOnes 16) (a : U8) (b : U16) (w : U32) :
    decode w = .command (f.assemble a b) ↔
      w &&& 0xFF000000#32 = f.row.pattern ∧ w.extractLsb' 16 8 = a ∧ w.extractLsb' 0 16 = b := by
  have hmask : f.row.mask = 0xFF000000#32 := by rw [CommandFormat.row, ha, hb]; rfl
  rw [decode_eq_assemble_iff hf, hmask, ha, hb]
  simp only [BitVec.and_allOnes]
  rfl

theorem decode_eq_register_iff (w : U32) (pin : U8) :
    decode w = .command (.register pin) ↔ w &&& 0xFF00FFFF#32 = 0x10000000#32 ∧ w.extractLsb' 16 8 = pin :=
  decode_eq_assemble_iff_of_aOnly (List.mem_of_getElem? (i := 1) rfl) rfl rfl pin 0#16 w

theorem decode_eq_release_iff (w : U32) (id : U8) :
    decode w = .command (.release id) ↔ w &&& 0xFF00FFFF#32 = 0x20000000#32 ∧ w.extractLsb' 16 8 = id :=
  decode_eq_assemble_iff_of_aOnly (List.mem_of_getElem? (i := 2) rfl) rfl rfl id 0#16 w

theorem decode_eq_setdelay_iff (w : U32) (id : U8) (delay : U16) :
    decode w = .command (.setdelay id delay) ↔
      w &&& 0xFF000000#32 = 0x30000000#32 ∧ w.extractLsb' 16 8 = id ∧ w.extractLsb' 0 16 = delay :=
  decode_eq_assemble_iff_of_aAndB (List.mem_of_getElem? (i := 3) rfl) rfl rfl id delay w

theorem decode_eq_getdelay_iff (w : U32) (id : U8) :
    decode w = .command (.getdelay id) ↔ w &&& 0xFF00FFFF#32 = 0x40000000#32 ∧ w.extractLsb' 16 8 = id :=
  decode_eq_assemble_iff_of_aOnly (List.mem_of_getElem? (i := 4) rfl) rfl rfl id 0#16 w

theorem decode_eq_getchan_iff (w : U32) (id : U8) :
    decode w = .command (.getchan id) ↔ w &&& 0xFF00FFFF#32 = 0xB0000000#32 ∧ w.extractLsb' 16 8 = id :=
  decode_eq_assemble_iff_of_aOnly (List.mem_of_getElem? (i := 11) rfl) rfl rfl id 0#16 w

end Sys2Proof

/-! The Channel Registry commands (40_registry_commands.md): what each answers for the slot that it finds. The answers
where it finds none are `execRelease_of_none` and its like. -/
namespace Sys2Proof.Machine

theorem execRegister_of_full {pin : U8} {s : State} (hpin : pin.toNat < s.numPins)
    (hfull : lowestFree s.chans = none) : execRegister pin s = .next (fail .errCapacity s) := by
  simp only [execRegister, hpin, if_true, hfull]

theorem execRegister_of_lowestFree {pin : U8} {s : State} {i : Nat} (hpin : pin.toNat < s.numPins)
    (hfree : lowestFree s.chans = some i) :
    execRegister pin s = .next (respond .ok (BitVec.ofNat 32 i)
      (setSlot i { pin := pin, delay := never, active := true, fired := false } s)) := by
  simp only [execRegister, hpin, if_true, hfree]

theorem execRelease_of_some {id : U8} {c : Slot} {s : State} (h : activeSlot id s = some c) :
    execRelease id s = .next (respond .ok 0#32 (setSlot id.toNat { c with active := false } s)) := by
  simp only [execRelease, h]

theorem execSetdelay_of_some {id : U8} {delay : U16} {c : Slot} {s : State} (h : activeSlot id s = some c) :
    execSetdelay id delay s = .next (respond .ok ((clampDelay (semi s) delay).setWidth 32)
      (setSlot id.toNat { c with delay := clampDelay (semi s) delay } s)) := by
  simp only [execSetdelay, h]

theorem execGetdelay_of_some {id : U8} {c : Slot} {s : State} (h : activeSlot id s = some c) :
    execGetdelay id s = .next (respond .ok (c.delay.setWidth 32) s) := by
  simp only [execGetdelay, h]

theorem execGetchan_of_some {id : U8} {c : Slot} {s : State} (h : slotAt id s = some c) :
    execGetchan id s = .next (respond .ok (slotView c) s) := by
  simp only [execGetchan, h]

/-! The GETCHAN datum (30_encoding.md R91). -/

theorem toNat_append_eq_add {m n : Nat} (x : BitVec m) (y : BitVec n) :
    (x ++ y).toNat = x.toNat * 2 ^ n + y.toNat := by
  rw [BitVec.toNat_append, ← Nat.shiftLeft_add_eq_or_of_lt y.isLt, Nat.shiftLeft_eq]

/-- Each field of the datum weighs what its lowest bit does. -/
theorem slotView_eq_ofNat (c : Slot) :
    slotView c =
      BitVec.ofNat 32 (c.delay.toNat * 65536 + c.fired.toNat * 512 + c.active.toNat * 256 + c.pin.toNat) := by
  have hdelay := c.delay.isLt
  have hpin := c.pin.isLt
  have hfired := c.fired.toNat_le
  have hactive := c.active.toNat_le
  apply BitVec.eq_of_toNat_eq
  rw [slotView, BitVec.toNat_ofNat]
  simp only [toNat_append_eq_add, BitVec.toNat_ofBool, BitVec.toNat_ofNat]
  omega

/-! The obligations. -/

/-- Settles O12: NOP has no operand and its arm only answers. -/
theorem nopAnswersOk : Obligations.NopAnswersOk := ⟨decode_eq_nop_iff, fun _ => rfl⟩

/-- Settles O13: the least inactive slot of the statement is what `lowestFree` finds. -/
theorem registerTakesTheLowestFreeSlot : Obligations.RegisterTakesTheLowestFreeSlot := by
  refine ⟨decode_eq_register_iff, fun s pin => ⟨?badPin, ?full, ?free⟩⟩
  case badPin => exact execRegister_of_numPins_le
  case full =>
    intro hpin hactive
    exact execRegister_of_full hpin ((lowestFree_eq_none s.chans).2 hactive)
  case free =>
    intro hpin i c hc hidle hbelow
    exact execRegister_of_lowestFree hpin ((lowestFree_eq_some s.chans i).2 ⟨⟨c, hc, hidle⟩, hbelow⟩)

/-- Settles O14: `activeSlot` finds the slots of the second clause and no other. -/
theorem releaseFreesTheSlot : Obligations.ReleaseFreesTheSlot := by
  refine ⟨decode_eq_release_iff, fun s id => ⟨?badId, ?active⟩⟩
  case badId =>
    intro hidle
    exact execRelease_of_none ((activeSlot_eq_none id s).2 hidle)
  case active =>
    intro c hc hactive
    exact execRelease_of_some ((activeSlot_eq_some id s c).2 ⟨hc, hactive⟩)

/-- Settles O15: the value of the statement is `clampDelay` of the semi-period and the operand. -/
theorem setdelayStoresOrClamps : Obligations.SetdelayStoresOrClamps := by
  refine ⟨decode_eq_setdelay_iff, fun s id delay => ⟨?badId, ?active⟩⟩
  case badId =>
    intro hidle
    exact execSetdelay_of_none ((activeSlot_eq_none id s).2 hidle)
  case active =>
    intro c v hc hactive hv
    obtain rfl : v = clampDelay (semi s) delay := hv
    exact execSetdelay_of_some ((activeSlot_eq_some id s c).2 ⟨hc, hactive⟩)

/-- Settles O16: the answer is the delay of the slot that `activeSlot` finds. -/
theorem getdelayReadsTheStoredDelay : Obligations.GetdelayReadsTheStoredDelay := by
  refine ⟨decode_eq_getdelay_iff, fun s id => ⟨?badId, ?active⟩⟩
  case badId =>
    intro hidle
    exact execGetdelay_of_none ((activeSlot_eq_none id s).2 hidle)
  case active =>
    intro c hc hactive
    exact execGetdelay_of_some ((activeSlot_eq_some id s c).2 ⟨hc, hactive⟩)

/-- Settles O17: the answer is `slotView`, whose fields `slotView_eq_ofNat` weighs. -/
theorem getchanReadsTheWholeSlot : Obligations.GetchanReadsTheWholeSlot := by
  refine ⟨decode_eq_getchan_iff, fun s id => ⟨?badId, ?inRange⟩⟩
  case badId =>
    intro hid
    exact execGetchan_of_none (slotAt_of_numSlots_le hid)
  case inRange =>
    intro c hc
    rw [← slotView_eq_ofNat]
    exact execGetchan_of_some hc

end Sys2Proof.Machine

/-! The zero-cross input (41_zero_cross.md R120 to R123): when an edge qualifies, and what each edge does. -/
namespace Sys2Proof.Machine

theorem polMatch_iff (p : Polarity) (v : Bool) :
    polMatch p v = true ↔ (p = .rising ∧ v = true) ∨ (p = .falling ∧ v = false) ∨ p = .both := by
  cases p <;> simp [polMatch]

/-- An edge is rejected by the reference that exists: the pending edge, else that of the half-cycle, none in Idle
(41_zero_cross.md R122). -/
theorem debounced_iff (s : State) :
    debounced s = true ↔
      (s.zcPend = true ∧ (s.now - s.zcCapt).toNat < s.minRetrig.toNat) ∨
      (s.zcPend = false ∧ s.zcState = .cycleActive ∧ (s.now - s.tEdge).toNat < s.minRetrig.toNat) := by
  have hwidth : (s.minRetrig.setWidth 32).toNat = s.minRetrig.toNat := BitVec.toNat_setWidth_of_le (by decide)
  unfold debounced
  cases hpend : s.zcPend with
  | true => simp [BitVec.lt_def, hwidth]
  | false => cases hstate : s.zcState <;> simp [syncActive, BitVec.lt_def, hwidth]

theorem edgeQualifies_iff (v : Bool) (s : State) :
    edgeQualifies v s = true ↔ s.en = true ∧ polMatch s.pol v = true ∧ ¬debounced s = true := by
  simp [edgeQualifies, and_assoc]

theorem zcin_of_level {v : Bool} {s : State} (h : v = s.zcPrev) : zcin v s = s := if_pos h

theorem zcin_of_qualifies {v : Bool} {s : State} (h : v ≠ s.zcPrev) (hq : edgeQualifies v s = true) :
    zcin v s = latchEdge { s with zcPrev := v } := by
  rw [zcin, if_neg h, if_pos hq]

theorem zcin_of_not_qualifies {v : Bool} {s : State} (h : v ≠ s.zcPrev) (hq : ¬edgeQualifies v s = true) :
    zcin v s = { s with zcPrev := v } := by
  rw [zcin, if_neg h, if_neg hq]

/-- Settles O30: the three conditions together say that the edge qualifies, and each case of `zcin` has its rule. -/
theorem zeroCrossInputLatchesQualifyingEdges : Obligations.ZeroCrossInputLatchesQualifyingEdges := by
  refine fun s v => ⟨zcin_of_level, fun hedge polarityMatches rejected hpol hrej => ?_⟩
  have hqualifies : s.en = true ∧ polarityMatches ∧ ¬rejected ↔ edgeQualifies v s = true := by
    rw [edgeQualifies_iff, polMatch_iff, debounced_iff, hpol, hrej]
  rw [hqualifies]
  refine ⟨fun hq => ?latched, zcin_of_not_qualifies hedge⟩
  case latched =>
    rw [zcin_of_qualifies hedge hq]
    rfl

end Sys2Proof.Machine

/-! SVC_ZC (41_zero_cross.md R124): the state in which it schedules, and the half-cycle that it leaves. -/
namespace Sys2Proof.Machine

/-- The monitor does not read what the entry of the service clears (43_frequency.md R174). -/
theorem sampleAtEdge_enterZc (s : State) : sampleAtEdge (enterZc s) = enterZc (sampleAtEdge s) := by
  have hsample (x : U32) : freqSample x (enterZc s) = enterZc (freqSample x s) := by
    unfold freqSample
    split <;> rfl
  have hnow : samplesNow (enterZc s) = samplesNow s := rfl
  unfold sampleAtEdge
  rw [hnow, enterZc_zcCapt, enterZc_tEdge, hsample]
  split <;> rfl

theorem samplesNow_iff (s : State) :
    samplesNow s = true ↔ s.zcState = .cycleActive ∧ (s.fmonCont = true ∨ s.fmonReq = true) := by
  cases hstate : s.zcState <;> simp [samplesNow, syncActive, hstate]

/-- The half-cycle opens with every line low and every FIRED bit clear (41_zero_cross.md R124). -/
theorem startHalfCycle_eq (s : State) :
    startHalfCycle s = { s with
      epoch := s.epoch + 1#32, gates := List.replicate s.numPins false, tEdge := s.zcCapt, zcState := .cycleActive
      chans := s.chans.map fun c => { c with fired := false } } := by
  rw [← List.map_const']
  rfl

/-- Settles O31: the monitor's part commutes with the entry, and the rest is the start of the half-cycle. -/
theorem svcZcRunsTheHandler : Obligations.SvcZcRunsTheHandler := by
  intro s hpend sampled hsampled
  have hsampled : sampled = sampleAtEdge s := by simp only [hsampled, sampleAtEdge, samplesNow_iff]
  have hexec : exec .svcZc s = .next (serviceZc s) := if_pos hpend
  refine ⟨0, ?_⟩
  rw [hexec, serviceZc_eq, sampleAtEdge_enterZc, startHalfCycle_eq, hsampled, sampleAtEdge_frame]
  rfl

/-- SVC_ZC writes, besides the fields with the values of R124, only the slots, the lines, the timer and the monitor. -/
theorem serviceZc_frame (s : State) :
    serviceZc s = { s with
      epoch := s.epoch + 1#32, tEdge := s.zcCapt, zcState := .cycleActive, zcPend := false, zcWait := 0
      chans := (serviceZc s).chans, gates := (serviceZc s).gates
      tmrArmed := (serviceZc s).tmrArmed, tmrCnt := (serviceZc s).tmrCnt
      armValue := (serviceZc s).armValue, armEpoch := (serviceZc s).armEpoch
      semiMeas := (serviceZc s).semiMeas, semiValid := (serviceZc s).semiValid
      fmonReq := (serviceZc s).fmonReq, oorCnt := (serviceZc s).oorCnt } := by
  rw [serviceZc_eq, schedule_frame, sampleAtEdge_frame]
  rfl

/-! What Schedule leaves at the start of a half-cycle. -/

theorem schedule_semi (s : State) : semi (schedule s) = semi s := by
  rw [schedule_frame]
  rfl

/-- At the start of a half-cycle exactly the slots that are due then are marked fired: the edge cleared the others. -/
theorem schedule_startHalfCycle_chans (s : State) :
    (schedule (startHalfCycle s)).chans =
      s.chans.map fun c => { c with fired := due (startHalfCycle s) { c with fired := false } } := by
  simp only [schedule_chans, fireAll, startHalfCycle_chans, clearFired_chans, List.map_map]
  refine List.map_congr_left fun c _ => ?_
  cases hdue : due (startHalfCycle s) { c with fired := false } <;> simp [hdue]

/-- A slot is due at the start of a half-cycle exactly by its own fields; whether it was fired before does not count. -/
theorem due_startHalfCycle (s : State) (c : Slot) :
    due (startHalfCycle s) { c with fired := false } =
      decide (c.active = true ∧ c.delay ≠ 0xFFFF#16 ∧ c.delay < semi (startHalfCycle s) ∧
        c.delay.toNat ≤ (s.now - s.zcCapt).toNat) := by
  rw [Bool.eq_iff_iff, decide_eq_true_iff, due_iff, eligible_iff]
  simp only [true_and, and_assoc]
  rfl

/-- Where Schedule finds every line low and no slot fired, a line is high after it exactly if a fired slot names it. -/
theorem schedule_high_iff_fired {s : State} {p : Nat} (hp : p < s.gates.length) (hlow : s.gates[p]? ≠ some true)
    (hfresh : ∀ c ∈ s.chans, c.fired = false) :
    (schedule s).gates[p]? = some true ↔ ∃ c ∈ (schedule s).chans, c.fired = true ∧ c.pin.toNat = p := by
  rw [schedule_gates, schedule_chans, fireAll_gates _ _ _ hp]
  constructor
  · rintro (hhigh | ⟨c, hc, hdue, hpin⟩)
    · exact absurd hhigh hlow
    · exact ⟨{ c with fired := true }, List.mem_map.2 ⟨c, hc, if_pos hdue⟩, rfl, hpin⟩
  · rintro ⟨d, hd, hfired, hpin⟩
    obtain ⟨c, hc, rfl⟩ := mem_fireAll _ _ _ hd
    by_cases hdue : due s c = true
    · rw [if_pos hdue] at hpin
      exact .inr ⟨c, hc, hdue, hpin⟩
    · rw [if_neg hdue, hfresh c hc] at hfired
      cases hfired

theorem startHalfCycle_unfired {s : State} {c : Slot} (hc : c ∈ (startHalfCycle s).chans) : c.fired = false := by
  rw [startHalfCycle_chans, clearFired_chans] at hc
  obtain ⟨d, -, rfl⟩ := List.mem_map.1 hc
  rfl

/-! The slots and the lines after SVC_ZC. -/

theorem serviceZc_chans (s : State) :
    (serviceZc s).chans = s.chans.map fun c => { c with
      fired := decide (c.active = true ∧ c.delay ≠ 0xFFFF#16 ∧ c.delay < semi (serviceZc s) ∧
        c.delay.toNat ≤ (s.now - s.zcCapt).toNat) } := by
  have hkept : (sampleAtEdge (enterZc s)).chans = s.chans ∧
      (sampleAtEdge (enterZc s)).now - (sampleAtEdge (enterZc s)).zcCapt = s.now - s.zcCapt := by
    rw [sampleAtEdge_frame]
    exact ⟨rfl, rfl⟩
  obtain ⟨hchans, helapsed⟩ := hkept
  rw [serviceZc_eq, schedule_startHalfCycle_chans, schedule_semi, hchans, ← helapsed]
  exact List.map_congr_left fun c _ => by rw [due_startHalfCycle]

theorem serviceZc_high_iff_fired {s : State} {p : Nat} (hp : p < s.gates.length) :
    (serviceZc s).gates[p]? = some true ↔ ∃ c ∈ (serviceZc s).chans, c.fired = true ∧ c.pin.toNat = p := by
  have hlines : (startHalfCycle (sampleAtEdge (enterZc s))).gates.length = s.gates.length := by
    rw [startHalfCycle_eq, sampleAtEdge_frame]
    exact List.length_replicate
  rw [serviceZc_eq]
  exact schedule_high_iff_fired (hlines ▸ hp) (startHalfCycle_not_high _ p) fun _ => startHalfCycle_unfired

/-- Settles O32: the handler's frame, the slots that it marks fired, and the lines that these name. -/
theorem svcZcStartsTheHalfCycle : Obligations.SvcZcStartsTheHalfCycle := by
  intro s t h
  obtain ⟨-, rfl⟩ := execSvcZc_eq_next h
  obtain ⟨-, hlines, -⟩ := serviceZc_sameParameters s
  refine ⟨serviceZc_epoch s, ?_, serviceZc_zcState s, ?_, ?_, ?_, ?_, ?_, ?_, ?_, serviceZc_chans s, hlines,
    fun _ => serviceZc_high_iff_fired⟩ <;> rw [serviceZc_frame]

end Sys2Proof.Machine

/-! What Fire and Schedule do to the slots, the lines and the timer (42_scheduler_timer.md R148 to R151). -/
namespace Sys2Proof.Machine

theorem fires_iff (sp v : U16) (c : Slot) : fires sp v c = true ↔ eligible sp c = true ∧ c.delay = v := by
  rw [fires, Bool.and_eq_true, decide_eq_true_eq]

/-! A dispatch, slot by slot and line by line. -/

theorem fireAll_getElem?_of_selected {q : Slot → Bool} {s : State} {i : Nat} {c : Slot} (hc : s.chans[i]? = some c)
    (hq : q c = true) : (fireAll q s).chans[i]? = some { c with fired := true } := by
  simp [fireAll, hc, hq]

theorem fireAll_getElem?_of_not_selected {q : Slot → Bool} {s : State} {i : Nat} {c : Slot}
    (hc : s.chans[i]? = some c) (hq : ¬q c = true) : (fireAll q s).chans[i]? = some c := by
  simp [fireAll, hc, hq]

/-- The slots and the lines of `t` are those of `s` after a dispatch of exactly the slots in `chosen`. -/
structure Dispatched (chosen : Slot → Prop) (s t : State) : Prop where
  fired : ∀ (i : Nat) (c : Slot), s.chans[i]? = some c → chosen c → t.chans[i]? = some { c with fired := true }
  kept : ∀ (i : Nat) (c : Slot), s.chans[i]? = some c → ¬chosen c → t.chans[i]? = some c
  lines : ∀ p, p < s.gates.length →
    (t.gates[p]? = some true ↔ s.gates[p]? = some true ∨ ∃ c ∈ s.chans, chosen c ∧ c.pin.toNat = p)

theorem fireAll_dispatched {q : Slot → Bool} {chosen : Slot → Prop} (s : State)
    (h : ∀ c, chosen c ↔ q c = true) : Dispatched chosen s (fireAll q s) := by
  refine ⟨fun i c hc hsel => ?_, fun i c hc hsel => ?_, fun p hp => ?_⟩
  · exact fireAll_getElem?_of_selected hc ((h c).1 hsel)
  · exact fireAll_getElem?_of_not_selected hc (mt (h c).2 hsel)
  · simp only [h]
    exact fireAll_gates q s p hp

/-- Settles O35: Fire is a dispatch of the slots that the statement chooses. -/
theorem fireAssertsExactlyTheEligibleChannels : Obligations.FireAssertsExactlyTheEligibleChannels := by
  intro s v chosen hchosen
  have hsel : ∀ c, chosen c ↔ fires (semi s) v c = true := fun c => by
    rw [hchosen, fires_iff, eligible_iff]
    simp only [and_assoc]
  obtain ⟨hfired, hkept, hlines⟩ := fireAll_dispatched s hsel
  rw [fire_eq_fireAll]
  exact ⟨rfl, List.length_map _, hfired, hkept, fireAll_gates_length _ s, hlines⟩

/-! The passes of Schedule. -/

/-- With a delay that has elapsed, every slot that Fire takes is due. -/
theorem due_of_fires {s : State} {v : U16} {c : Slot} (hv : v.toNat ≤ (s.now - s.tEdge).toNat)
    (hc : fires (semi s) v c = true) : due s c = true := by
  obtain ⟨helig, rfl⟩ := (fires_iff _ _ c).1 hc
  exact (due_iff s c).2 ⟨helig, hv⟩

/-- Firing a delay that has elapsed is a part of what Schedule does anyway. -/
theorem schedule_fire_of_elapsed {s : State} {v : U16} (hv : v.toNat ≤ (s.now - s.tEdge).toNat) :
    schedule (fire v s) = schedule s := by
  have hdue : (fun c => fires (semi s) v c || due s c) = due s := funext fun c => by
    rw [Bool.or_eq_right_iff_imp]
    exact due_of_fires hv
  rw [schedule_fire, hdue, schedule_eq]

/-- With nothing due, Schedule is its last pass. -/
theorem schedule_of_not_due {s : State} (h : ∀ c ∈ s.chans, due s c = false) : schedule s = armLeast s := by
  rw [schedule_eq, fireAll_none _ _ h]

theorem armLeast_of_none {s : State} (h : leastEligible s = none) : armLeast s = cancel s := by
  simp only [armLeast, h]

theorem armLeast_of_some {s : State} {m : U16} (h : leastEligible s = some m) :
    armLeast s = arm ((m.setWidth 32 - elapsed s).setWidth 16) m s := by
  simp only [armLeast, h]

theorem schedule_of_none {s : State} (h : ∀ c ∈ s.chans, eligible (semi s) c = false) : schedule s = cancel s := by
  rw [schedule_of_not_due fun c hc => by rw [due, h c hc, Bool.false_and],
    armLeast_of_none ((leastEligible_eq_none s).2 h)]

/-- The count of the arming: the microseconds from the elapsed time to the delay. -/
theorem armedCount_toNat {m : U16} {x : U32} (h : x.toNat < m.toNat) :
    ((m.setWidth 32 - x).setWidth 16).toNat = m.toNat - x.toNat := by
  bv_omega

/-- Settles O36: the passes with nothing eligible, with a least delay that has elapsed, and with one that has not. -/
theorem scheduleMeetsItsLoop : Obligations.ScheduleMeetsItsLoop := by
  refine fun s => ⟨schedule_of_none, fun c hc helig hleast => ⟨fun helapsed => ?_, fun hlater => ?_⟩⟩
  · exact (schedule_fire_of_elapsed helapsed).symm
  · have hnotDue : ∀ d ∈ s.chans, due s d = false := fun d hd => Bool.eq_false_iff.2 fun hdue => by
      obtain ⟨heligd, hd'⟩ := (due_iff s d).1 hdue
      have hle : c.delay.toNat ≤ d.delay.toNat := hleast d hd heligd
      omega
    have hcount : (c.delay.setWidth 32 - elapsed s).setWidth 16 =
        BitVec.ofNat 16 (c.delay.toNat - (s.now - s.tEdge).toNat) := by
      rw [← armedCount_toNat hlater, BitVec.ofNat_toNat, BitVec.setWidth_eq]
      rfl
    rw [schedule_of_not_due hnotDue, armLeast_of_some ((leastEligible_eq_some s _).2 ⟨⟨c, hc, helig, rfl⟩, hleast⟩),
      hcount]
    rfl

/-- Settles O37: no slot is due in the state of the last pass, which cancels or arms for the least delay. -/
theorem scheduleLeavesTheQueueInvariant : Obligations.ScheduleLeavesTheQueueInvariant := by
  intro s t ht
  rw [schedule_eq] at ht
  have hnotDue : ∀ c ∈ (fireAll (due s) s).chans, due (fireAll (due s) s) c = false := fun _ => not_due_of_mem_fireAll
  generalize fireAll (due s) s = u at ht hnotDue
  cases hleast : leastEligible u with
  | none =>
    rw [armLeast_of_none hleast] at ht
    subst ht
    exact .inl ⟨rfl, rfl, (leastEligible_eq_none u).1 hleast⟩
  | some m =>
    obtain ⟨⟨c, hc, helig, rfl⟩, hmin⟩ := (leastEligible_eq_some u m).1 hleast
    have hlater : (u.now - u.tEdge).toNat < c.delay.toNat := by
      by_contra hle
      exact absurd ((due_iff u c).2 ⟨helig, not_lt.1 hle⟩) (Bool.eq_false_iff.1 (hnotDue c hc))
    have hcount := armedCount_toNat hlater
    rw [armLeast_of_some hleast] at ht
    subst ht
    refine .inr ⟨rfl, rfl, ?_, ?_, ⟨c, hc, helig, rfl⟩, hmin⟩
    · change (u.now - u.tEdge).toNat + ((c.delay.setWidth 32 - (u.now - u.tEdge)).setWidth 16).toNat = c.delay.toNat
      omega
    · change 1 ≤ ((c.delay.setWidth 32 - (u.now - u.tEdge)).setWidth 16).toNat
      omega

end Sys2Proof.Machine

/-! TICK and SVC_TMR (42_scheduler_timer.md R140, R141, R152, R153). -/
namespace Sys2Proof.Machine

/-- Settles O33: the three cases of `tick`. -/
theorem tickCountsDownAndExpires : Obligations.TickCountsDownAndExpires := by
  refine fun s => ⟨fun hoff => ?_, fun harmed hcnt => ?_, fun harmed hcnt => ?_⟩
  · rw [tick_of_disarmed hoff]
    rfl
  · rw [tick_of_running harmed hcnt]
    rfl
  · rw [tick_of_last harmed hcnt]
    rfl

/-- SVC_TMR where the arbiter enables it (60_exceptions.md R220). -/
theorem execSvcTmr_of_enabled {s : State} (ht : s.tmrPend = true) (hz : s.zcPend = false) :
    execSvcTmr s = .next (serviceTmr s) := by
  simp [execSvcTmr, ht, hz]

theorem exec_svcTmr_of_stale {s : State} (ht : s.tmrPend = true) (hz : s.zcPend = false)
    (hstale : s.fireEpoch ≠ s.epoch) :
    exec .svcTmr s = .next { s with
      tmrPend := false, tmrWait := 0, tfireCnt := s.tfireCnt + 1#32, staleCnt := s.staleCnt + 1#32 } :=
  (execSvcTmr_of_enabled ht hz).trans (congrArg _ (serviceTmr_stale hstale))

/-- Settles O38: the two paths of the handler. -/
theorem svcTmrFiresOnlyItsOwnEpoch : Obligations.SvcTmrFiresOnlyItsOwnEpoch := fun _ ht hz =>
  ⟨fun hstale => ⟨0, exec_svcTmr_of_stale ht hz hstale⟩,
    fun hlive => ⟨0, (execSvcTmr_of_enabled ht hz).trans (congrArg _ (serviceTmr_live hlive))⟩⟩

/-- Settles O40: SVC_ZC keeps the waiting request and moves EPOCH past it. -/
theorem edgeBeforeExpiryMakesItStale : Obligations.EdgeBeforeExpiryMakesItStale := by
  intro s t _ hpend hepoch h
  obtain ⟨-, rfl⟩ := execSvcZc_eq_next h
  have hstale : s.fireEpoch ≠ s.epoch + 1#32 := by
    rw [hepoch]
    bv_omega
  refine ⟨0, ?_⟩
  rw [serviceZc_frame]
  exact exec_svcTmr_of_stale hpend rfl hstale

/-- The slots that a live SVC_TMR fires: at the armed delay, or due (42_scheduler_timer.md R150, R152). -/
def firedBySvcTmr (s : State) (c : Slot) : Bool := fires (semi s) s.armValue c || due s c

theorem firedBySvcTmr_iff (s : State) (c : Slot) :
    firedBySvcTmr s c = true ↔
      eligible (semi s) c = true ∧ (c.delay = s.armValue ∨ c.delay.toNat ≤ (s.now - s.tEdge).toNat) := by
  rw [firedBySvcTmr, Bool.or_eq_true, fires_iff, due_iff, ← and_or_left]

/-- A live SVC_TMR is one dispatch besides its entry, and the timer. -/
theorem serviceTmr_live_eq {s : State} (h : s.fireEpoch = s.epoch) :
    serviceTmr s = { s with
      tmrPend := false, tmrWait := 0, tfireCnt := s.tfireCnt + 1#32
      chans := (fireAll (firedBySvcTmr s) s).chans, gates := (fireAll (firedBySvcTmr s) s).gates
      tmrArmed := (serviceTmr s).tmrArmed, tmrCnt := (serviceTmr s).tmrCnt
      armValue := (serviceTmr s).armValue, armEpoch := (serviceTmr s).armEpoch } := by
  rw [serviceTmr_live h, schedule_fire, armLeast_frame]
  rfl

/-- Settles O39: the dispatch of `serviceTmr_live_eq` is of the slots that the statement names. -/
theorem liveSvcTmrFiresWhatIsDue : Obligations.LiveSvcTmrFiresWhatIsDue := by
  intro s t hlive h
  obtain ⟨-, -, rfl⟩ := execSvcTmr_eq_next h
  rw [serviceTmr_live_eq hlive]
  refine ⟨rfl, rfl, rfl, rfl, rfl, rfl, rfl, rfl, rfl, fun chosen hchosen => ?_⟩
  obtain ⟨hfired, hkept, hlines⟩ := fireAll_dispatched s fun c => (hchosen c).trans (firedBySvcTmr_iff s c).symm
  exact ⟨hfired, hkept, hlines⟩

end Sys2Proof.Machine

/-! The countdown of a block left to itself (42_scheduler_timer.md R140, R154; log 3). -/
namespace Sys2Proof.Machine

/-- A run is extended by a step at its end. -/
theorem run_succ_last {k : Nat} {s t u : State} (h : Sys2Proof.core.run k s = .next t) (hstep : step t = .next u) :
    Sys2Proof.core.run (k + 1) s = .next u := by
  induction k generalizing s with
  | zero =>
    obtain rfl : s = t := Host.Outcome.next.inj h
    exact run_succ 0 s u hstep
  | succ k ih =>
    cases hfirst : step s with
    | next s' =>
      rw [run_succ _ _ _ hfirst] at h ⊢
      exact ih h
    | fault r => exact nomatch r
    | refused r =>
      have hstop : Sys2Proof.core.run (k + 1) s = .refused r := by
        have hcore : Sys2Proof.core.step s = .refused r := hfirst
        simp only [Host.Core.run, hcore]
      exact absurd (hstop.symm.trans h) nofun

/-- The timer counts down with nothing pending and no input, and nothing has waited. -/
structure CountsDownAlone (s : State) : Prop where
  inputs : s.inputs = []
  zcPend : s.zcPend = false
  tmrPend : s.tmrPend = false
  tmrArmed : s.tmrArmed = true
  zcWait : s.zcWait = 0
  tmrWait : s.tmrWait = 0

/-- `s` when `k` TICKs of its countdown have passed. -/
def State.countedDown (s : State) (k : Nat) : State :=
  { s with now := s.now + BitVec.ofNat 32 k, tmrCnt := s.tmrCnt - BitVec.ofNat 16 k }

/-- `s` when its whole countdown has passed: the timer has raised its request (42_scheduler_timer.md R141). -/
def State.expired (s : State) : State :=
  { s with
    now := s.now + s.tmrCnt.setWidth 32, tmrCnt := 0#16, tmrArmed := false, tmrPend := true, fireEpoch := s.armEpoch }

theorem CountsDownAlone.countedDown {s : State} (h : CountsDownAlone s) (k : Nat) :
    CountsDownAlone (s.countedDown k) :=
  ⟨h.inputs, h.zcPend, h.tmrPend, h.tmrArmed, h.zcWait, h.tmrWait⟩

theorem CountsDownAlone.step_eq {s : State} (h : CountsDownAlone s) : step s = .next (tick s) :=
  step_of_select_tick (select_nil_none h.inputs ((arbiter_eq_none s).2 ⟨h.zcPend, h.tmrPend⟩))

theorem CountsDownAlone.advanceTime_eq {s : State} (h : CountsDownAlone s) :
    advanceTime s = { s with now := s.now + 1#32 } := by
  simp only [advanceTime, h.zcPend, h.tmrPend, Bool.false_eq_true, if_false, h.zcWait, h.tmrWait]

theorem CountsDownAlone.tick_of_running {s : State} (h : CountsDownAlone s) (hc : s.tmrCnt ≠ 1#16) :
    tick s = s.countedDown 1 := by
  rw [Machine.tick_of_running h.tmrArmed hc, h.advanceTime_eq]
  rfl

theorem CountsDownAlone.tick_of_last {s : State} (h : CountsDownAlone s) (hc : s.tmrCnt = 1#16) :
    tick s = s.expired := by
  rw [Machine.tick_of_last h.tmrArmed hc, h.advanceTime_eq]
  simp [expire, State.expired, h.tmrPend, hc]

theorem countedDown_zero (s : State) : s.countedDown 0 = s := by
  simp [State.countedDown]

theorem countedDown_countedDown_one (s : State) (k : Nat) :
    (s.countedDown k).countedDown 1 = s.countedDown (k + 1) := by
  simp [State.countedDown, BitVec.ofNat_add, BitVec.add_assoc, BitVec.sub_sub]

theorem countedDown_tmrCnt_toNat {s : State} {k : Nat} (hk : k < s.tmrCnt.toNat) :
    (s.countedDown k).tmrCnt.toNat = s.tmrCnt.toNat - k := by
  have hlt := s.tmrCnt.isLt
  change (s.tmrCnt - BitVec.ofNat 16 k).toNat = _
  bv_omega

theorem expired_countedDown {s : State} {k : Nat} (hk : k < s.tmrCnt.toNat) :
    (s.countedDown k).expired = s.expired := by
  have hnow : s.now + BitVec.ofNat 32 k + (s.tmrCnt - BitVec.ofNat 16 k).setWidth 32 =
      s.now + s.tmrCnt.setWidth 32 := by
    have hlt := s.tmrCnt.isLt
    bv_omega
  simp only [State.expired, State.countedDown, hnow]

/-- As long as the countdown runs, each step is a TICK of it. -/
theorem CountsDownAlone.run_eq {s : State} (h : CountsDownAlone s) {k : Nat} (hk : k < s.tmrCnt.toNat) :
    Sys2Proof.core.run k s = .next (s.countedDown k) := by
  induction k with
  | zero => rw [countedDown_zero]; rfl
  | succ k ih =>
    have hcnt := countedDown_tmrCnt_toNat (Nat.lt_of_succ_lt hk)
    have hmore : (s.countedDown k).tmrCnt ≠ 1#16 := by
      intro hone
      rw [hone, BitVec.toNat_ofNat] at hcnt
      omega
    refine run_succ_last (ih (Nat.lt_of_succ_lt hk)) ?_
    rw [(h.countedDown k).step_eq, (h.countedDown k).tick_of_running hmore, countedDown_countedDown_one]

/-- The last TICK of the countdown raises the request. -/
theorem CountsDownAlone.run_tmrCnt {s : State} (h : CountsDownAlone s) (hpos : 1 ≤ s.tmrCnt.toNat) :
    Sys2Proof.core.run s.tmrCnt.toNat s = .next s.expired := by
  obtain ⟨k, hk⟩ := Nat.exists_eq_add_of_le' hpos
  have hlt : k < s.tmrCnt.toNat := by omega
  have hlast : (s.countedDown k).tmrCnt = 1#16 := by
    have hcnt := countedDown_tmrCnt_toNat hlt
    apply BitVec.eq_of_toNat_eq
    rw [hcnt, BitVec.toNat_ofNat]
    omega
  rw [hk]
  refine run_succ_last (h.run_eq hlt) ?_
  rw [(h.countedDown k).step_eq, (h.countedDown k).tick_of_last hlast, expired_countedDown hlt]

/-- A state with the invariants counts down alone when it is quiescent, armed and without inputs. -/
theorem State.Inv.countsDownAlone {s : State} (hs : s.Inv) (hquiet : s.Quiescent) (hin : s.inputs = [])
    (harmed : s.tmrArmed = true) : CountsDownAlone s := by
  obtain ⟨-, -, -, -, -, -, -, hzc, -, htmr⟩ := hs
  obtain ⟨hz, ht⟩ := hquiet
  exact ⟨hin, hz, ht, harmed, hzc hz, htmr ht⟩

/-- With no input, a waiting firing is served at once. -/
theorem step_of_tmrPend {s : State} (hin : s.inputs = []) (hz : s.zcPend = false) (ht : s.tmrPend = true) :
    step s = .next (serviceTmr s) :=
  (step_of_select_service (select_nil_enabled hin ((arbiter_eq_some s _).2 (.inr ⟨rfl, hz, ht⟩)))).trans
    (execSvcTmr_of_enabled ht hz)

/-- A live SVC_TMR raises the line of every eligible slot at the armed delay, if the line exists. -/
theorem serviceTmr_high_of_armValue {s : State} {c : Slot} (hlive : s.fireEpoch = s.epoch) (hc : c ∈ s.chans)
    (helig : eligible (semi s) c = true) (hdelay : c.delay = s.armValue) (hpin : c.pin.toNat < s.gates.length) :
    (serviceTmr s).gates[c.pin.toNat]? = some true := by
  rw [serviceTmr_live_eq hlive]
  exact (fireAll_gates _ s _ hpin).2 (.inr ⟨c, hc, (firedBySvcTmr_iff s c).2 ⟨helig, .inl hdelay⟩, rfl⟩)

/-- Settles O54: the run is that of `CountsDownAlone`, and the step after it the live SVC_TMR of the armed delay. -/
theorem armedDelayFiresOnTime : Obligations.ArmedDelayFiresOnTime := by
  intro s hs hquiet hin harmed
  have halone := hs.countsDownAlone hquiet hin harmed
  obtain ⟨-, hcount, htime, -, -, hpins, -⟩ := hs
  obtain ⟨hpos, -⟩ := hcount.1 harmed
  obtain ⟨hepoch, -, hend⟩ := htime harmed
  have hexpiry := halone.run_tmrCnt hpos
  have hlive : s.expired.fireEpoch = s.expired.epoch := hepoch
  refine ⟨?waits, s.expired, serviceTmr s.expired, hexpiry, ?elapsed, step_of_tmrPend hin halone.zcPend rfl, ?sameTime,
    ?raises⟩
  case waits =>
    intro k hk
    obtain hlt | rfl := Nat.lt_or_eq_of_le hk
    · exact ⟨_, halone.run_eq hlt, rfl, rfl⟩
    · exact ⟨_, hexpiry, rfl, congrArg (s.now + ·) (BitVec.ofNat_toNat 32 s.tmrCnt).symm⟩
  case elapsed =>
    change s.now + s.tmrCnt.setWidth 32 - s.tEdge = s.armValue.setWidth 32
    rw [hend]
    bv_omega
  case sameTime => rw [serviceTmr_live_eq hlive]
  case raises =>
    intro c hc helig hdelay
    have hactive := active_of_eligible helig
    exact serviceTmr_high_of_armValue hlive hc helig hdelay (hpins c hc hactive)

end Sys2Proof.Machine

/-! When a word decodes to a frequency command (43_frequency.md R175 to R178). -/
namespace Sys2Proof

/-- A command has one word, the one that the encoder writes. -/
theorem decode_eq_command_iff_of_encodeCommand {i : Instr} {v : U32} (h : encodeCommand i = some v) (w : U32) :
    decode w = .command i ↔ w = v := by
  rw [decode_eq_command_iff_encodeCommand, h, Option.some_inj, eq_comm]

theorem decode_eq_getsemi_iff (w : U32) : decode w = .command .getsemi ↔ w = 0x50000000#32 :=
  decode_eq_command_iff_of_encodeCommand rfl w

theorem decode_eq_getfreq_iff (w : U32) : decode w = .command .getfreq ↔ w = 0x60000000#32 :=
  decode_eq_command_iff_of_encodeCommand rfl w

theorem decode_eq_measure_iff (w : U32) : decode w = .command .measure ↔ w = 0xA0000000#32 :=
  decode_eq_command_iff_of_encodeCommand rfl w

/-- The used bits of SETFMODE's `B` are its mode. -/
theorem and_modeBits_eq_iff (b c : U16) : b &&& 3#16 = c &&& 3#16 ↔ b.extractLsb' 0 2 = c.extractLsb' 0 2 := by
  constructor
  · intro h
    rw [← extractLsb'_mode_used b, h, extractLsb'_mode_used]
  · intro h
    rw [← setWidth_extractLsb'_mode, h, setWidth_extractLsb'_mode]

theorem extractLsb'_setWidth_mode : ∀ mode : U2, (mode.setWidth 16).extractLsb' 0 2 = mode := by decide

/-- The mode is the low end of `B`, which is the low end of the word. -/
theorem extractLsb'_mode_bField (w : U32) : (bField w).extractLsb' 0 2 = w.extractLsb' 0 2 := by
  refine BitVec.eq_of_getLsbD_eq fun i hi => ?_
  have hi16 : i < 16 := by omega
  simp only [bField, BitVec.getLsbD_extractLsb', hi, hi16, decide_true, Bool.true_and, Nat.zero_add]

theorem decode_eq_setfmode_iff (w : U32) (mode : U2) :
    decode w = .command (.setfmode mode) ↔ w &&& 0xFFFFFFFC#32 = 0x70000000#32 ∧ w.extractLsb' 0 2 = mode := by
  have hformat := decode_eq_assemble_iff (List.mem_of_getElem? (i := 7) rfl) 0#8 (mode.setWidth 16) w
  simp only [and_modeBits_eq_iff, extractLsb'_mode_bField, extractLsb'_setWidth_mode, BitVec.and_zero,
    true_and] at hformat
  exact hformat

end Sys2Proof

/-! The semi-period, the frequency and the sample rule (43_frequency.md R170 to R173), and the frequency commands
(R175 to R178). -/
namespace Sys2Proof.Machine

/-! SEMI in each mode. -/

theorem semi_of_fixed50 {s : State} (h : s.fmode = .fixed50) : semi s = 10000#16 := by
  rw [semi, h]; rfl

theorem semi_of_fixed60 {s : State} (h : s.fmode = .fixed60) : semi s = 8333#16 := by
  rw [semi, h]; rfl

theorem semi_of_measured {s : State} (h : s.fmode = .runtime) (hvalid : s.semiValid = true) : semi s = s.semiMeas := by
  simp only [semi, h, hvalid, if_true]

theorem semi_of_unmeasured {s : State} (h : s.fmode = .runtime) (hvalid : s.semiValid = false) : semi s = 0#16 := by
  simp only [semi, h, hvalid, Bool.false_eq_true, if_false]

/-! FREQ_HZ as a rounded quotient. -/

theorem freqHz_zero : freqHz 0#16 = 0#32 := rfl

/-- The quotient is below `2^32`, so that the word holds it whole. -/
theorem freqHz_toNat {sp : U16} (h : sp ≠ 0#16) : (freqHz sp).toNat = (500000 + sp.toNat / 2) / sp.toNat := by
  have hsmall : (500000 + sp.toNat / 2) / sp.toNat < 2 ^ 32 := by
    have hsp := sp.isLt
    have hle := Nat.div_le_self (500000 + sp.toNat / 2) sp.toNat
    omega
  rw [freqHz, if_neg h, BitVec.toNat_ofNat, Nat.mod_eq_of_lt hsmall]

/-- Half the divisor added before a division rounds to nearest: the quotient is within one half of `x / d`. -/
theorem add_half_div_bounds (x : Nat) {d : Nat} (hd : 0 < d) :
    2 * ((x + d / 2) / d) * d ≤ 2 * x + d ∧ 2 * x < 2 * ((x + d / 2) / d) * d + d := by
  have hrem := Nat.mod_lt (x + d / 2) hd
  have hdiv := Nat.div_add_mod' (x + d / 2) d
  rw [Nat.mul_assoc]
  omega

/-! FreqSample inside and outside its range. -/

theorem freqSample_of_inRange {sample : U32} (h : 7692 ≤ sample.toNat ∧ sample.toNat ≤ 11111) (s : State) :
    freqSample sample s = { s with semiMeas := sample.setWidth 16, semiValid := true, fmonReq := false } :=
  if_pos h

theorem freqSample_of_outOfRange {sample : U32} (h : ¬(7692 ≤ sample.toNat ∧ sample.toNat ≤ 11111)) (s : State) :
    freqSample sample s = { s with oorCnt := s.oorCnt + 1#32 } :=
  if_neg h

/-! SETFMODE for each mode. -/

theorem execSetfmode_of_none {mode : U2} (h : freqModeOf mode = none) (s : State) :
    execSetfmode mode s = .next (fail .errBadArg s) := by
  simp only [execSetfmode, h]

theorem execSetfmode_of_some {mode : U2} {m : FreqMode} (h : freqModeOf mode = some m) (s : State) :
    execSetfmode mode s = .next (respond .ok 0#32 { s with fmode := m }) := by
  simp only [execSetfmode, h]

/-- The codes of the modes (43_frequency.md R177). -/
theorem freqModeOf_of_mem :
    ∀ p ∈ [(0#2, FreqMode.fixed50), (1#2, .fixed60), (2#2, .runtime)], freqModeOf p.1 = some p.2 := by
  decide

/-! The obligations. -/

/-- Settles O19: the quotient is `1000000 / (2 s)` rounded to nearest. -/
theorem frequencyIsTheNearestHertz : Obligations.FrequencyIsTheNearestHertz := by
  refine ⟨freqHz_zero, fun sp hsp => ?_⟩
  have hpos : 0 < sp.toNat := Nat.pos_of_ne_zero fun h => hsp (BitVec.eq_of_toNat_eq h)
  obtain ⟨hupper, hlower⟩ := add_half_div_bounds 500000 hpos
  rw [freqHz_toNat hsp]
  exact ⟨rfl, hupper, hlower⟩

/-- Settles O21: GETSEMI has no operand and its arm only answers. -/
theorem getsemiReadsTheSemiPeriod : Obligations.GetsemiReadsTheSemiPeriod := ⟨decode_eq_getsemi_iff, fun _ => rfl⟩

/-- Settles O22: GETFREQ has no operand and its arm only answers. -/
theorem getfreqReadsTheFrequency : Obligations.GetfreqReadsTheFrequency := ⟨decode_eq_getfreq_iff, fun _ => rfl⟩

/-- Settles O23: the pairs of the statement are the codes that `freqModeOf` knows; 3 is not one of them. -/
theorem setfmodeStoresTheMode : Obligations.SetfmodeStoresTheMode := by
  refine ⟨decode_eq_setfmode_iff, fun s => ⟨?refused, ?stored⟩⟩
  case refused => exact execSetfmode_of_none (mode := 3#2) rfl s
  case stored =>
    intro mode m hmem
    exact execSetfmode_of_some (freqModeOf_of_mem (mode, m) hmem) s

/-- Settles O24: MEASURE has no operand and its arm sets the request. -/
theorem measureRequestsOneSample : Obligations.MeasureRequestsOneSample := ⟨decode_eq_measure_iff, fun _ => rfl⟩

/-- Settles O18: one clause for each mode, and two for runtime. -/
theorem semiPeriodByMode : Obligations.SemiPeriodByMode := fun _ =>
  ⟨semi_of_fixed50, semi_of_fixed60, semi_of_measured, semi_of_unmeasured⟩

/-- Settles O20: the two clauses are the two branches of the sample rule. -/
theorem frequencySampleIsTakenInRangeOnly : Obligations.FrequencySampleIsTakenInRangeOnly := by
  intro s sample
  constructor
  · intro hin
    rw [BitVec.ofNat_toNat]
    exact freqSample_of_inRange hin s
  · intro hout
    exact freqSample_of_outOfRange (by omega) s

end Sys2Proof.Machine

/-! When a word decodes to WREG or RREG (44_config_regs.md R190, R193). -/
namespace Sys2Proof

theorem decode_eq_wreg_iff (w : U32) (index : U8) (value : U16) :
    decode w = .command (.wreg index value) ↔
      w &&& 0xFF000000#32 = 0x80000000#32 ∧ w.extractLsb' 16 8 = index ∧ w.extractLsb' 0 16 = value :=
  decode_eq_assemble_iff_of_aAndB (List.mem_of_getElem? (i := 8) rfl) rfl rfl index value w

theorem decode_eq_rreg_iff (w : U32) (index : U8) :
    decode w = .command (.rreg index) ↔ w &&& 0xFF00FFFF#32 = 0x90000000#32 ∧ w.extractLsb' 16 8 = index :=
  decode_eq_assemble_iff_of_aOnly (List.mem_of_getElem? (i := 9) rfl) rfl rfl index 0#16 w

end Sys2Proof

/-! Configuration and register access (44_config_regs.md R190 to R193). That an index with no writable register, an
illegal CTRL value and a reserved index are refused is `execWreg_of_not_writable`, `writeCtrl_of_not_wellFormed` and
`execRreg_of_reserved`. -/
namespace Sys2Proof.Machine

/-! The fields of a CTRL value as arithmetic (44_config_regs.md R190). -/

theorem ctrlEn_eq_true_iff (value : U16) : ctrlEn value = true ↔ value.toNat % 2 = 1 := by
  rw [← Bool.not_eq_false, ctrlEn_eq_false_iff]
  omega

theorem ctrlPullup_eq_div (value : U16) : ctrlPullup value = decide (value.toNat / 8 % 2 = 1) := getLsbD_eq_div value 3

theorem ctrlFmonCont_eq_div (value : U16) : ctrlFmonCont value = decide (value.toNat / 16 % 2 = 1) :=
  getLsbD_eq_div value 4

/-- The codes of the polarities (44_config_regs.md R191). -/
theorem polarityOf_of_mem {code : U2} {p : Polarity}
    (h : (code.toNat, p) ∈ [(0, Polarity.rising), (1, .falling), (2, .both)]) : polarityOf code = some p := by
  revert code
  cases p <;> decide

/-- A legal CTRL value names the polarity whose code stands in its bits 2:1 (44_config_regs.md R191). -/
theorem ctrlPol_eq_some {value : U16} {p : Polarity} (hsmall : value.toNat < 32)
    (hcode : (value.toNat / 2 % 4, p) ∈ [(0, Polarity.rising), (1, .falling), (2, .both)]) :
    ctrlPol value = some p := by
  have hupper : value.extractLsb' 5 11 = 0#11 := by
    apply BitVec.eq_of_toNat_eq
    rw [BitVec.extractLsb'_toNat, Nat.shiftRight_eq_div_pow, Nat.div_eq_of_lt hsmall]
    rfl
  have hbits : (value.extractLsb' 1 2).toNat = value.toNat / 2 % 4 := by
    rw [BitVec.extractLsb'_toNat, Nat.shiftRight_eq_div_pow]
  rw [ctrlPol, if_pos hupper]
  exact polarityOf_of_mem (hbits ▸ hcode)

/-! WREG of CTRL: refused, stored, or stored and quiesced (44_config_regs.md R190 to R192). -/

theorem exec_wreg_ctrl (value : U16) (s : State) : exec (.wreg 0x00#8 value) s = .next (writeCtrl value s) := rfl

theorem writeCtrl_of_illegal {value : U16} (h : 32 ≤ value.toNat ∨ value.toNat / 2 % 4 = 3) (s : State) :
    writeCtrl value s = fail .errBadArg s :=
  writeCtrl_of_not_wellFormed ((ctrlPol_eq_none_iff_not_wellFormed value).1 ((ctrlPol_eq_none value).2 h))

theorem writeCtrl_of_enabling {value : U16} {p : Polarity} (hpol : ctrlPol value = some p)
    (hodd : value.toNat % 2 = 1) (s : State) :
    writeCtrl value s = respond .ok 0#32 { s with
      en := true, pol := p, pullup := decide (value.toNat / 8 % 2 = 1)
      fmonCont := decide (value.toNat / 16 % 2 = 1) } := by
  have hen : ctrlEn value = true := (ctrlEn_eq_true_iff value).2 hodd
  simp only [writeCtrl, hpol, hen, if_true, ctrlPullup_eq_div, ctrlFmonCont_eq_div]

theorem writeCtrl_of_disabling {value : U16} {p : Polarity} (hpol : ctrlPol value = some p)
    (heven : value.toNat % 2 = 0) (s : State) :
    writeCtrl value s = respond .ok 0#32 (quiesce { s with
      en := false, pol := p, pullup := decide (value.toNat / 8 % 2 = 1)
      fmonCont := decide (value.toNat / 16 % 2 = 1) }) := by
  have hen : ctrlEn value = false := (ctrlEn_eq_false_iff value).2 heven
  simp only [writeCtrl, hpol, hen, Bool.false_eq_true, if_false, ctrlPullup_eq_div, ctrlFmonCont_eq_div]

/-! The read views as weighted sums of their fields (30_encoding.md R90). -/

/-- Each field of CTRL weighs what its lowest bit does. -/
theorem ctrlView_eq_ofNat (s : State) :
    ctrlView s = BitVec.ofNat 32
      (s.en.toNat + (polarityCode s.pol).toNat * 2 + s.pullup.toNat * 8 + s.fmonCont.toNat * 16) := by
  apply BitVec.eq_of_toNat_eq
  rw [ctrlView, BitVec.toNat_setWidth, BitVec.toNat_ofNat]
  simp only [toNat_append_eq_add, BitVec.toNat_ofBool]
  congr 1
  omega

theorem syncActive_toNat (z : SyncState) : (syncActive z).toNat = if z = .cycleActive then 1 else 0 := by
  cases z <;> rfl

/-- Each field of STATUS weighs what its bit does. -/
theorem statusView_eq_ofNat (s : State) :
    statusView s = BitVec.ofNat 32
      ((if s.zcState = .cycleActive then 1 else 0) + s.tmrArmed.toNat * 2 + s.zcPend.toNat * 4 + s.tmrPend.toNat * 8
        + s.semiValid.toNat * 16 + s.fmonReq.toNat * 32 + s.zcPrev.toNat * 64) := by
  apply BitVec.eq_of_toNat_eq
  rw [← syncActive_toNat, statusView, BitVec.toNat_setWidth, BitVec.toNat_ofNat]
  simp only [toNat_append_eq_add, BitVec.toNat_ofBool]
  congr 1
  omega

/-! RREG of an implemented index. -/

theorem execRreg_of_some {index : U8} {r : RegName} (h : regOfIndex index = some r) (s : State) :
    execRreg index s = .next (respond .ok (regRead r s) s) := by
  simp only [execRreg, h]

/-- The register map with the view of each register (30_encoding.md R89, R90). -/
def indexedViews (s : State) : List (Nat × U32) := regNames.zipIdx.map fun e => (e.2, regRead e.1 s)

/-- An entry of the indexed views is what RREG answers. -/
theorem execRreg_of_mem_indexedViews {s : State} {index : U8} {v : U32} (h : (index.toNat, v) ∈ indexedViews s) :
    execRreg index s = .next (respond .ok v s) := by
  obtain ⟨⟨r, i⟩, hmem, heq⟩ := List.mem_map.1 h
  obtain ⟨rfl, rfl⟩ : i = index.toNat ∧ regRead r s = v := Prod.mk.inj heq
  exact execRreg_of_some (List.mk_mem_zipIdx_iff_getElem?.1 hmem) s

/-! The obligations. -/

/-- Settles O25: CTRL is the three cases of `writeCtrl`; MIN_RETRIG has one, and every other index is refused. -/
theorem wregWritesCtrlAndMinRetrig : Obligations.WregWritesCtrlAndMinRetrig := by
  refine ⟨decode_eq_wreg_iff, fun s index value => ⟨?badIndex, ?minRetrig, ?illegal, ?enabling, ?disabling⟩⟩
  case badIndex => exact execWreg_of_not_writable
  case minRetrig => rfl
  case illegal =>
    intro hvalue
    rw [exec_wreg_ctrl, writeCtrl_of_illegal hvalue]
    rfl
  case enabling =>
    intro p hsmall hcode hodd
    rw [exec_wreg_ctrl, writeCtrl_of_enabling (ctrlPol_eq_some hsmall hcode) hodd]
    rfl
  case disabling =>
    intro p hsmall hcode heven
    rw [exec_wreg_ctrl, writeCtrl_of_disabling (ctrlPol_eq_some hsmall hcode) heven]

/-- Settles O26: the write stores the fields and quiesces, and `quiesce_eq` says what that does. Both wait counts
start anew. -/
theorem disablingQuiesces : Obligations.DisablingQuiesces := by
  intro s value p hsmall hcode heven
  refine ⟨0, 0, ?_⟩
  have hlow : (s.gates.map fun _ => false) = List.replicate s.numPins false := List.map_const'
  rw [exec_wreg_ctrl, writeCtrl_of_disabling (ctrlPol_eq_some hsmall hcode) heven, quiesce_eq, hlow]
  rfl

/-- Settles O27: the list of the statement is the register map with each register's view. -/
theorem rregReadsEveryRegister : Obligations.RregReadsEveryRegister := by
  refine ⟨decode_eq_rreg_iff, fun s index => ⟨execRreg_of_reserved, fun v hmem => ?_⟩⟩
  rw [← ctrlView_eq_ofNat, ← statusView_eq_ofNat] at hmem
  simp only [BitVec.ofNat_toNat] at hmem
  exact execRreg_of_mem_indexedViews hmem

end Sys2Proof.Machine

/-! No step stops (60_exceptions.md R212): the arbiter enables only what can run, and every command answers. -/
namespace Sys2Proof.Machine

/-- Settles O8: the arbiter enables each service on exactly its condition. -/
theorem arbiterServesZeroCrossFirst : Obligations.ArbiterServesZeroCrossFirst := fun s =>
  ⟨fun hz => (arbiter_eq_some s _).2 (.inl ⟨rfl, hz⟩), fun hz ht => (arbiter_eq_some s _).2 (.inr ⟨rfl, hz, ht⟩),
    fun hz ht => (arbiter_eq_none s).2 ⟨hz, ht⟩⟩

theorem Answered.exists_next {s : State} {o : Host.Outcome State Fault Refusal} (h : Answered s o) :
    ∃ t, o = .next t := by
  cases h with
  | ok => exact ⟨_, rfl⟩
  | error => exact ⟨_, rfl⟩

/-- SVC_ZC where the arbiter enables it (60_exceptions.md R220). -/
theorem execSvcZc_of_enabled {s : State} (hz : s.zcPend = true) : execSvcZc s = .next (serviceZc s) := if_pos hz

/-- A service that the arbiter enables is not refused (60_exceptions.md R220). -/
theorem exec_service_exists_next {s : State} {i : Instr} (h : arbiter s = some i) : ∃ t, exec i s = .next t := by
  obtain ⟨rfl, hz⟩ | ⟨rfl, hz, ht⟩ := (arbiter_eq_some s i).1 h
  · exact ⟨_, execSvcZc_of_enabled hz⟩
  · exact ⟨_, execSvcTmr_of_enabled ht hz⟩

/-- A step runs a command, which answers, or a service that is enabled, or nothing. -/
theorem step_exists_next (s : State) : ∃ t, step s = .next t := by
  cases hf : fetch s with
  | done t => exact ⟨t, step_of_fetch_done hf⟩
  | run i u =>
    rw [step_of_fetch_run hf]
    obtain ⟨rfl, hcommand | hservice⟩ := fetch_run s u i hf
    · exact (exec_answered hcommand _).exists_next
    · exact exec_service_exists_next hservice

/-- Settles O11, by induction on the length of the run. -/
theorem everyRunGoesOn : Obligations.EveryRunGoesOn := by
  intro k
  induction k with
  | zero => exact fun s => ⟨s, rfl⟩
  | succ k ih =>
    intro s
    obtain ⟨t, ht⟩ := step_exists_next s
    rw [GoesOn, run_succ k s t ht]
    exact ih t

end Sys2Proof.Machine

/-! The latency bound (60_exceptions.md R222; log 7). -/
namespace Sys2Proof.Machine

theorem tickEnabled_iff (s : State) :
    tickEnabled s = true ↔
      (s.zcPend = true → s.zcWait < s.latMax) ∧ (s.tmrPend = true → s.tmrWait < s.latMax) := by
  have hbound (pend : Bool) (wait : Nat) :
      (!pend || decide (wait < s.latMax)) = true ↔ (pend = true → wait < s.latMax) := by
    cases pend <;> simp
  rw [tickEnabled, Bool.and_eq_true, hbound, hbound]

/-- The countdown writes nothing but the timer and its request, and STALE_CNT (42_scheduler_timer.md R140, R141). -/
theorem countDown_frame (s : State) :
    countDown s = { s with
      tmrArmed := (countDown s).tmrArmed, tmrCnt := (countDown s).tmrCnt, tmrPend := (countDown s).tmrPend
      fireEpoch := (countDown s).fireEpoch, staleCnt := (countDown s).staleCnt } := by
  unfold countDown
  split
  next =>
    simp only
    split <;> rfl
  next => rfl

theorem tick_zcWait (s : State) : (tick s).zcWait = if s.zcPend then s.zcWait + 1 else 0 := by
  rw [tick, countDown_frame, advanceTime_zcWait]

theorem tick_tmrWait (s : State) : (tick s).tmrWait = if s.tmrPend then s.tmrWait + 1 else 0 := by
  rw [tick, countDown_frame, advanceTime_tmrWait]

/-- Settles O34: the countdown of a TICK leaves the wait counts as the time base has set them. -/
theorem latencyBoundBlocksTheTick : Obligations.LatencyBoundBlocksTheTick := fun s =>
  ⟨tickEnabled_iff s, tick_zcWait s, tick_tmrWait s⟩

end Sys2Proof.Machine

/-! What each service and each host command may write (60_exceptions.md R225). -/
namespace Sys2Proof.Machine

/-! The services. -/

/-- SVC_TMR writes only the slots, the lines, the timer and its request, TFIRE_CNT and STALE_CNT. -/
theorem serviceTmr_frame (s : State) :
    serviceTmr s = { s with
      tmrPend := false, tmrWait := 0, tfireCnt := s.tfireCnt + 1#32
      chans := (serviceTmr s).chans, gates := (serviceTmr s).gates
      tmrArmed := (serviceTmr s).tmrArmed, tmrCnt := (serviceTmr s).tmrCnt
      armValue := (serviceTmr s).armValue, armEpoch := (serviceTmr s).armEpoch
      staleCnt := (serviceTmr s).staleCnt } := by
  by_cases hlive : s.fireEpoch = s.epoch
  · rw [serviceTmr_live_eq hlive]
  · rw [serviceTmr_stale hlive]
    rfl

/-- Settles O50: the frame of each handler, and that it writes nothing of a slot but FIRED. -/
theorem servicesWriteOnlyTheirState : Obligations.ServicesWriteOnlyTheirState := by
  refine fun s t => ⟨fun h => ?svcZc, fun h => ?svcTmr⟩
  case svcZc =>
    obtain ⟨-, rfl⟩ := execSvcZc_eq_next h
    refine ⟨?_, serviceZc_sameRegistry s⟩
    rw [serviceZc_frame]
  case svcTmr =>
    obtain ⟨-, -, rfl⟩ := execSvcTmr_eq_next h
    refine ⟨?_, serviceTmr_sameRegistry s⟩
    rw [serviceTmr_frame]

/-! The slots under a host command. -/

/-- Registries that agree but for FIRED agree in all that does not depend on FIRED. -/
theorem SameRegistry.map_eq {β : Type} {f : Slot → β} {s t : State} (h : SameRegistry s t)
    (hf : ∀ c : Slot, f { c with fired := false } = f c) : t.chans.map f = s.chans.map f := by
  have hclear (u : State) : (clearFired u).chans.map f = u.chans.map f := by
    rw [clearFired_chans, List.map_map]
    exact List.map_congr_left fun c _ => hf c
  rw [← hclear t, ← hclear s, h]

/-- Writing an active slot keeps what the write leaves of it. -/
theorem setSlot_map_eq {β : Type} {f : Slot → β} {id : U8} {s : State} {c x : Slot} (hc : activeSlot id s = some c)
    (hf : f x = f c) : (setSlot id.toNat x s).chans.map f = s.chans.map f :=
  map_set_of_eq f s.chans id.toNat c x ((activeSlot_eq_some id s c).1 hc).1 hf

/-- Of every slot, a host command other than REGISTER keeps what does not depend on the one field that it may write:
ACTIVE for RELEASE, DELAY for SETDELAY, FIRED for a quiesce. -/
theorem CommandEffect.map_chans_eq {β : Type} {f : Slot → β} {s t : State} {i : Instr} (h : CommandEffect s i t)
    (hregister : ∀ pin, i ≠ .register pin)
    (hrelease : ∀ id, i = .release id → ∀ c : Slot, f { c with active := false } = f c)
    (hsetdelay : ∀ id delay, i = .setdelay id delay → ∀ (c : Slot) (v : U16), f { c with delay := v } = f c)
    (hquiesce : IsQuiesce i → ∀ c : Slot, f { c with fired := false } = f c) :
    t.chans.map f = s.chans.map f := by
  cases h with
  | registers => exact absurd rfl (hregister _)
  | releases hc => exact setSlot_map_eq hc (hrelease _ rfl _)
  | setsDelay hc => exact setSlot_map_eq hc (hsetdelay _ _ rfl _ _)
  | @disables index value p hr _ hen =>
    have hq := quiesce_sameRegistry
      { s with en := false, pol := p, pullup := ctrlPullup value, fmonCont := ctrlFmonCont value }
    have hindex := regOfIndex_eq_ctrl _ hr
    exact hq.map_eq (hquiesce ⟨value, by rw [hindex], (ctrlEn_eq_false_iff _).1 hen⟩)
  | _ => rfl

theorem CommandEffect.pins_actives_eq {s t : State} {i : Instr} (h : CommandEffect s i t)
    (hregister : ∀ pin, i ≠ .register pin) (hrelease : ∀ id, i ≠ .release id) :
    t.chans.map (·.pin) = s.chans.map (·.pin) ∧ t.chans.map (·.active) = s.chans.map (·.active) :=
  ⟨h.map_chans_eq hregister (fun id hi => absurd hi (hrelease id)) (fun _ _ _ _ _ => rfl) fun _ _ => rfl,
    h.map_chans_eq hregister (fun id hi => absurd hi (hrelease id)) (fun _ _ _ _ _ => rfl) fun _ _ => rfl⟩

theorem CommandEffect.delays_eq {s t : State} {i : Instr} (h : CommandEffect s i t)
    (hregister : ∀ pin, i ≠ .register pin) (hsetdelay : ∀ id delay, i ≠ .setdelay id delay) :
    t.chans.map (·.delay) = s.chans.map (·.delay) :=
  h.map_chans_eq hregister (fun _ _ _ => rfl) (fun id delay hi => absurd hi (hsetdelay id delay)) fun _ _ => rfl

theorem CommandEffect.fireds_eq {s t : State} {i : Instr} (h : CommandEffect s i t)
    (hregister : ∀ pin, i ≠ .register pin) (hquiesce : ¬IsQuiesce i) :
    t.chans.map (·.fired) = s.chans.map (·.fired) :=
  h.map_chans_eq hregister (fun _ _ _ => rfl) (fun _ _ _ _ _ => rfl) fun hi => absurd hi hquiesce

/-! The rest of the state under a host command. -/

/-- No host command writes the time, the edge detector's captures, the epochs, the estimate, the counters, LAT_MAX or
the queue of inputs. -/
theorem CommandEffect.frame {s t : State} {i : Instr} (h : CommandEffect s i t) :
    t = { s with
      chans := t.chans, en := t.en, pol := t.pol, pullup := t.pullup, fmonCont := t.fmonCont, minRetrig := t.minRetrig
      fmode := t.fmode, fmonReq := t.fmonReq, zcPend := t.zcPend, zcState := t.zcState, tmrArmed := t.tmrArmed
      tmrCnt := t.tmrCnt, tmrPend := t.tmrPend, gates := t.gates, zcWait := t.zcWait, tmrWait := t.tmrWait
      resp := t.resp } := by
  cases h with
  | disables =>
    rw [quiesce_eq]
    rfl
  | _ => rfl

theorem CommandEffect.sameCycle {s t : State} {i : Instr} (h : CommandEffect s i t) (hquiesce : ¬IsQuiesce i) :
    SameCycle s t := by
  obtain ⟨hsame, -⟩ | ⟨hi, -⟩ := h.sameCycle_or_quiesces
  · exact hsame
  · exact absurd hi hquiesce

theorem CommandEffect.config_eq {s t : State} {i : Instr} (h : CommandEffect s i t)
    (hwreg : ∀ index value, i ≠ .wreg index value) :
    t.en = s.en ∧ t.pol = s.pol ∧ t.pullup = s.pullup ∧ t.fmonCont = s.fmonCont ∧ t.minRetrig = s.minRetrig := by
  cases h with
  | setsMinRetrig => exact absurd rfl (hwreg _ _)
  | enables => exact absurd rfl (hwreg _ _)
  | disables => exact absurd rfl (hwreg _ _)
  | _ => exact ⟨rfl, rfl, rfl, rfl, rfl⟩

theorem CommandEffect.fmode_eq {s t : State} {i : Instr} (h : CommandEffect s i t)
    (hsetfmode : ∀ mode, i ≠ .setfmode mode) : t.fmode = s.fmode := by
  cases h with
  | setsMode => exact absurd rfl (hsetfmode _)
  | _ => rfl

theorem CommandEffect.fmonReq_eq {s t : State} {i : Instr} (h : CommandEffect s i t) (hmeasure : i ≠ .measure) :
    t.fmonReq = s.fmonReq := by
  cases h with
  | requestsSample => exact absurd rfl hmeasure
  | _ => rfl

/-- Settles O49: each clause is a lemma about the effects of a host command. -/
theorem hostCommandsWriteOnlyTheirState : Obligations.HostCommandsWriteOnlyTheirState := by
  intro i s t hi h
  have heff := exec_effect hi h
  refine ⟨heff.frame, fun hquiesce => ?cycle, heff.pins_actives_eq, heff.delays_eq, heff.fireds_eq, heff.config_eq,
    heff.fmode_eq, heff.fmonReq_eq⟩
  case cycle =>
    have hsame := heff.sameCycle hquiesce
    exact ⟨hsame.zcPend, hsame.zcState, hsame.tmrArmed, hsame.tmrCnt, hsame.tmrPend, hsame.gates, hsame.zcWait,
      hsame.tmrWait⟩

end Sys2Proof.Machine
